-- ==== Sys2Proof/Word.lean ====
section
/-! DEFINITION. The widths of the spec (00_scope.md R10) as types, and the names of the three lanes (41_composer.md R121). -/

namespace Sys2Proof

/-- LaneInput and the colour components: 8 bits (R10). -/
abbrev Byte := BitVec 8

/-- The Phase-1 intermediate `q_m`: 9 bits (R10). -/
abbrev Intermediate := BitVec 9

/-- LaneOutput: a 10-bit symbol (R10, 30_encoding.md R67). -/
abbrev Symbol := BitVec 10

/-- The stored pixel and the CompositeWord: 32 bits (R10, 20_memory.md R41, R42). -/
abbrev Word32 := BitVec 32

/-- A composer request `REQ35` (30_encoding.md R62). -/
abbrev Req35 := BitVec 35

/-- A lane-encoder request `LREQ11` (30_encoding.md R63). -/
abbrev LReq11 := BitVec 11

/-- The composer's three lane encoders A, B and C (41_composer.md R120, R121). -/
inductive Lane where
  | a
  | b
  | c
  deriving DecidableEq, Repr

end Sys2Proof
end

