-- ==== Sys2Proof/Config.lean ====
section
/-! DEFINITION. The named parameters of 00_scope.md R11, which the spec leaves open, and the free value of a tick with reset
and a request (70_reset_and_hazards.md R162). None has a body: nothing can be proved of its value. -/

namespace Sys2Proof

/-- The two kinds of reset input that RESET_KIND allows (00_scope.md R11, 70_reset_and_hazards.md R161). -/
inductive ResetKind where
  | synchronous
  | asynchronous
  deriving DecidableEq, Repr, Inhabited

namespace Config

/-- LATENCY: ticks from a request to its word at the pins (R11, 92_eei_decisions.md D10). Log 8. -/
opaque latency : Nat

/-- IDLE_WORD: what the output pins show when no word is being delivered (R11, 92_eei_decisions.md D9). Log 8. -/
opaque idleWord : Word32

/-- How many bits an implementation's counter has beyond the least width of 4 (R11, 92_eei_decisions.md D5). Log 9. -/
opaque counterExtraBits : Nat

/-- CNT_WIDTH: the storage width of a counter, "at least 4" (R11, 92_eei_decisions.md D5). Log 9. -/
def counterWidth : Nat := 4 + counterExtraBits

/-- RESET_KIND: "not observable in the tick-level model" (70_reset_and_hazards.md R161), so nothing reads it. Log 10. -/
opaque resetKind : ResetKind

/-- SERIAL_ORDER: the positions of a symbol's bits in the order the external transport sends them
(20_memory.md R44, 92_eei_decisions.md D12). Log 11. -/
opaque serialOrder : List (Fin 10)

/-- FREE VALUE: whether a tick that carries both reset and a request still emits the request's word
(70_reset_and_hazards.md R162, outcome (b)) or drops it (outcome (a)), for the n-th such tick. Log 3. -/
opaque resetReqEmits : Nat → Bool

end Config
end Sys2Proof
end

