-- ==== Sys2Proof/Syntax.lean ====
section
/-! DEFINITION. The four operations of the block (30_encoding.md R60), one constructor per row of opcode_table.json. -/

namespace Sys2Proof

/-- The operations. Ignored request bits (30_encoding.md R70) are no operands, except P[31:24]: the spec's syntax
`ACT 0xPPPPPPPP` (R72) gives ACT the whole stored pixel, and it is the MEANING that ignores its upper byte. -/
inductive Instr where
  /-- `ACT P`: Composer.encode_active on the stored pixel P (41_composer.md R124). -/
  | act (p : Word32)
  /-- `CTL hs, vs`: Composer.encode_control (41_composer.md R125). -/
  | ctl (hsync vsync : Bool)
  /-- `LACT D` at lane encoder `l`: Lane.encode_active (40_lane_encoder.md R92, whose pseudocode is LACT(L, D)). -/
  | lact (l : Lane) (d : Byte)
  /-- `LCTL c0, c1` at lane encoder `l`: Lane.encode_control (40_lane_encoder.md R97). -/
  | lctl (l : Lane) (c0 c1 : Bool)
  deriving DecidableEq, Repr

end Sys2Proof
end

