-- ==== Sys2Proof/WellFormed.lean ====
section
/-! DEFINITION. Well-formedness: of an operation (nothing to check: 30_encoding.md R69) and of a table word, that is
a number given as a request of so many bits (30_encoding.md R71). -/

namespace Sys2Proof

/-- Every operation is well formed: each operand's type has exactly the values the spec allows, and "there is no illegal,
reserved or trapping request value" (30_encoding.md R69). -/
def Instr.WellFormed : Instr → Bool
  | .act _ => true
  | .ctl _ _ => true
  | .lact _ _ => true
  | .lctl _ _ _ => true

/-- Which request format a table word of `nbits` bits has: LREQ11 is 11 bits and REQ35 is 35 bits (30_encoding.md R71),
each also counted in whole bytes (16 and 40 bits). DESIGN CHOICE, log 6. -/
inductive TableFormat where
  | lreq11
  | req35
  deriving DecidableEq, Repr

/-- The format of a table word's width, if it is one of the two. -/
def tableFormat (nbits : Nat) : Option TableFormat :=
  if nbits = 11 ∨ nbits = 16 then some .lreq11
  else if nbits = 35 ∨ nbits = 40 then some .req35
  else none

/-- The width of a format: fixed (30_encoding.md R71). -/
def TableFormat.width : TableFormat → Nat
  | .lreq11 => 11
  | .req35 => 35

/-- The first check on a table word: its width is that of a request format. -/
def widthKnown (nbits : Nat) : Bool := (tableFormat nbits).isSome

/-- The second check on a table word: no bit is set above its format's width. -/
def fitsFormat (nbits w : Nat) : Bool :=
  match tableFormat nbits with
  | some f => decide (w < 2 ^ f.width)
  | none => false

/-- A table word is well formed: both checks hold. -/
def tableWordWellFormed (nbits w : Nat) : Bool := widthKnown nbits && fitsFormat nbits w

end Sys2Proof
end

