-- ==== Sys2Proof/Decode.lean ====
section
/-! DEFINITION. Requests, the total decoder (30_encoding.md R62, R63, R69) and, after it, the encoder (R72); and the reading of
a table word, which refuses by name a number that is no request. -/

namespace Sys2Proof

/-- A request as it reaches the pins: Q at the composer's, or K at one lane encoder's (30_encoding.md R62, R63). LREQ11 has no
lane field: the lane is WHICH encoder's pins it reaches. -/
inductive Request where
  | composer (q : Req35)
  | lane (l : Lane) (k : LReq11)
  deriving DecidableEq, Repr

/-- S = Q[34], pin `req_sel` (30_encoding.md R62). -/
def reqSelect (q : Req35) : Bool := q.getLsbD 34

/-- V = Q[33], pin `req_vsync` (30_encoding.md R62). -/
def reqVsync (q : Req35) : Bool := q.getLsbD 33

/-- H = Q[32], pin `req_hsync` (30_encoding.md R62). -/
def reqHsync (q : Req35) : Bool := q.getLsbD 32

/-- P = Q[31:0], pins `req_pixel[31:0]` (30_encoding.md R62). -/
def reqPixel (q : Req35) : Word32 := q.extractLsb' 0 32

/-- Decoding of REQ35: S alone selects the operation (30_encoding.md R62, R69). -/
def decodeReq35 (q : Req35) : Instr :=
  if reqSelect q then .act (reqPixel q) else .ctl (reqHsync q) (reqVsync q)

/-- S = K[10], pin `sel` (30_encoding.md R63). -/
def laneSelect (k : LReq11) : Bool := k.getLsbD 10

/-- C1 = K[9], pin `c1` (30_encoding.md R63). -/
def laneC1 (k : LReq11) : Bool := k.getLsbD 9

/-- C0 = K[8], pin `c0` (30_encoding.md R63). -/
def laneC0 (k : LReq11) : Bool := k.getLsbD 8

/-- D = K[7:0], pins `data[7:0]` (30_encoding.md R63). -/
def laneData (k : LReq11) : Byte := k.extractLsb' 0 8

/-- Decoding of LREQ11 at lane encoder `l` (30_encoding.md R63, R69). -/
def decodeLReq11 (l : Lane) (k : LReq11) : Instr :=
  if laneSelect k then .lact l (laneData k) else .lctl l (laneC0 k) (laneC1 k)

/-- The decoder: total, since every value of a request is one operation (30_encoding.md R69). -/
def decode : Request → Instr
  | .composer q => decodeReq35 q
  | .lane l k => decodeLReq11 l k

/-- The fields of a REQ35 put together: `{S, V, H, P}` (30_encoding.md R62). -/
def packReq35 (sel vsync hsync : Bool) (p : Word32) : Req35 :=
  BitVec.ofBool sel ++ BitVec.ofBool vsync ++ BitVec.ofBool hsync ++ p

/-- The fields of an LREQ11 put together: `{S, C1, C0, D}` (30_encoding.md R63). -/
def packLReq11 (sel c1 c0 : Bool) (d : Byte) : LReq11 :=
  BitVec.ofBool sel ++ BitVec.ofBool c1 ++ BitVec.ofBool c0 ++ d

/-- The encoder: the canonical request, ignored fields zero (30_encoding.md R72). -/
def encode : Instr → Request
  | .act p => .composer (packReq35 true false false p)
  | .ctl hs vs => .composer (packReq35 false vs hs 0)
  | .lact l d => .lane l (packLReq11 true false false d)
  | .lctl l c0 c1 => .lane l (packLReq11 false c1 c0 0)

/-- Why a number is no request. -/
inductive Reject where
  /-- No request format has this many bits (30_encoding.md R71). -/
  | widthUnknown (nbits : Nat)
  /-- A bit is set above the format's width (30_encoding.md R71). -/
  | bitsAboveWidth (nbits w : Nat)
  deriving DecidableEq, Repr

/-- The lane encoder whose pins a table word of the LREQ11 format is given to: the word does not say. DESIGN CHOICE, log 4. -/
def tableLane : Lane := .a

/-- The request a table word stands for, or the name of what is wrong with it. Bit i of `w` is bit i of Q or of K: the block takes a
request as a whole, and no byte order arises in it (20_memory.md R43). -/
def tableRequest (nbits w : Nat) : Except Reject Request :=
  match tableFormat nbits with
  | none => .error (.widthUnknown nbits)
  | some .req35 =>
    if w < 2 ^ TableFormat.req35.width then .ok (.composer (BitVec.ofNat 35 w)) else .error (.bitsAboveWidth nbits w)
  | some .lreq11 =>
    if w < 2 ^ TableFormat.lreq11.width then .ok (.lane tableLane (BitVec.ofNat 11 w)) else .error (.bitsAboveWidth nbits w)

/-- The operation the decoder reads from a table word, if the word is a request. -/
def decodeTableWord (nbits w : Nat) : Option Instr :=
  match tableRequest nbits w with
  | .ok r => some (decode r)
  | .error _ => none

end Sys2Proof
end

