-- ==== Sys2Proof/Machine/State.lean ====
section
/-! DEFINITION. State as plain data: the block's three disparity counters (10_state.md R20) and, beside them, the model's own record of
the host's two agents (60_exceptions.md R153); the reasons a step can stop; the states after reset and at power-up. -/

namespace Sys2Proof.Machine

/-- `CounterCell` (10_state.md R20). A value outside [-4, 4] can be written here by hand only; a LACT that reads one
faults (60_exceptions.md R141). -/
inductive Cell where
  /-- Nothing has written the cell since power-up (10_state.md R34). This is the spec's own state, not a missing reset value. -/
  | unset
  | val (v : Int)
  deriving DecidableEq, Repr

/-- The whole state of the block (10_state.md R20): one counter per lane encoder. -/
structure Counters where
  a : Cell
  b : Cell
  c : Cell
  deriving DecidableEq, Repr

/-- What the host supplies at one tick (41_composer.md R130), or to a model of one lane encoder (30_encoding.md R60, R63). -/
inductive Input where
  /-- `Reset`: the reset input, with no request (70_reset_and_hazards.md R161). -/
  | reset
  /-- `Req(Q)`: a composer request, without reset. -/
  | req (q : Req35)
  /-- `ResetReq(Q)`: reset in a tick that also carries a request (70_reset_and_hazards.md R162). -/
  | resetReq (q : Req35)
  /-- A request at the pins of lane encoder `l`, in a model of that encoder (92_eei_decisions.md D22). Log 4. -/
  | lane (l : Lane) (k : LReq11)
  deriving DecidableEq, Repr

/-- What a step delivered, for the host's record of the run. DESIGN CHOICE, log 2. -/
inductive Event where
  /-- A tick in which this composite word was handed to the transport, the pins `out_word[31:0]` (41_composer.md R129,
  92_eei_decisions.md D2). -/
  | word (w : Word32)
  /-- A tick in which reset was asserted and no word was handed over (70_reset_and_hazards.md R161, R162 (a)). -/
  | resetTick
  /-- A mark, and no tick of its own: reset was asserted in the tick whose word stands before it (70_reset_and_hazards.md R162 (b)). -/
  | resetAfterWord
  /-- A lane operation in a model of lane encoder `l` returned this symbol, its pins `sym[9:0]` (40_lane_encoder.md R92,
  R97, 30_encoding.md R63). -/
  | symbol (l : Lane) (s : Symbol)
  deriving DecidableEq, Repr

/-- Why a LACT cannot run (41_composer.md R130, "LACT precondition fails"). -/
inductive FaultReason where
  /-- The cell is Unset (60_exceptions.md R142). -/
  | unresetCounter
  /-- The cell's value is outside [-4, 4] (60_exceptions.md R141). -/
  | counterOutOfRange
  deriving DecidableEq, Repr

/-- A (reason, lane) pair (60_exceptions.md R143). -/
structure LaneFault where
  reason : FaultReason
  lane : Lane
  deriving DecidableEq, Repr

/-- Why the machine stops with a fault. -/
inductive Fault where
  /-- Raised by LACT and ACT on a counter that is Unset or out of range: every failing (reason, lane) pair in the order A, B, C,
  and the block's state before the step, kept for inspection (60_exceptions.md R141 to R143). Safe: the block would produce some
  word there, and the model produces none (logs 5 and 13). -/
  | laneFaults (faults : List LaneFault) (kept : Counters)
  deriving DecidableEq, Repr

/-- Why a step has no meaning. -/
inductive Refusal where
  /-- Raised by an arm of `exec` whose instruction has no meaning yet. Safe. No arm raises it. -/
  | notModelled (mnemonic : String)
  /-- Raised by `step` when the host has no further input: such a cycle "is not a tick", and the spec has a model refuse it
  (93_implementation_defined.md U11, 70_reset_and_hazards.md R169). Safe (log 7). -/
  | noRequest
  deriving DecidableEq, Repr

/-- The machine: the block's counters, and the model's own fields. -/
structure State where
  /-- The block's whole state (10_state.md R20). -/
  cnt : Counters
  /-- The inputs the host has yet to present, one per tick, oldest first (10_state.md R26). Log 1. -/
  input : List Input
  /-- What has been delivered so far, oldest first (20_memory.md R56). The block never reads it. Log 2. -/
  log : List Event
  /-- How many free values have been used (70_reset_and_hazards.md R162). Log 3. -/
  choice : Nat
  deriving DecidableEq, Repr

/-- All three counters at 0 (70_reset_and_hazards.md R160). -/
def Counters.zero : Counters := ⟨.val 0, .val 0, .val 0⟩

/-- All three counters Unset (10_state.md R34). -/
def Counters.unset : Counters := ⟨.unset, .unset, .unset⟩

/-- The machine right after reset: every counter 0 (10_state.md R33), no word delivered, no input waiting. -/
def State.reset : State := { cnt := .zero, input := [], log := [], choice := 0 }

/-- The machine at power-up, before any reset (10_state.md R34, 70_reset_and_hazards.md R164). -/
def State.powerUp : State := { cnt := .unset, input := [], log := [], choice := 0 }

end Sys2Proof.Machine
end

