-- ==== Sys2Proof/Machine/Ops.lean ====
section
/-! DEFINITION. The named operations: counting ones (40_lane_encoder.md R80, R81), the control-code table (R96), packing (41_composer.md R123),
reading and writing counters (10_state.md R23), raising a model fault (60_exceptions.md R143), delivering (41_composer.md R129), reset
(70_reset_and_hazards.md R160 to R162) and taking the next input (10_state.md R26). -/

namespace Sys2Proof.Machine

/-- The number of 1 bits of `v` at positions below `n`. -/
def onesBelow {w : Nat} (v : BitVec w) : Nat → Nat
  | 0 => 0
  | n + 1 => onesBelow v n + (v.getLsbD n).toNat

/-- `popcount(v)` (00_scope.md R13). -/
def popcount {w : Nat} (v : BitVec w) : Nat := onesBelow v w

/-- `ones(v)` (40_lane_encoder.md R80). -/
def ones (v : Byte) : Nat := popcount v

/-- `zeros(v)` (40_lane_encoder.md R80). -/
def zeros (v : Byte) : Nat := 8 - popcount v

/-- `hd(v)`, the half-disparity (40_lane_encoder.md R81). -/
def halfDisparity (v : Byte) : Int := ((ones v : Int) - (zeros v : Int)) / 2

/-- The control-code table `CTRL_ROM`, indexed by {c1, c0} (40_lane_encoder.md R96). -/
def ctrlRom (i : BitVec 2) : Symbol :=
  if i = 0b11#2 then 0b1010101011#10
  else if i = 0b10#2 then 0b0101010100#10
  else if i = 0b01#2 then 0b0010101011#10
  else 0b1101010100#10

/-- `pack(a, b, c) := {2'b00, c, b, a}` (41_composer.md R123). -/
def pack (a b c : Symbol) : Word32 := 0b00#2 ++ c ++ b ++ a

/-- The counter cell of a lane (00_scope.md R15, `cnt[L]`). -/
def Counters.get (k : Counters) : Lane → Cell
  | .a => k.a
  | .b => k.b
  | .c => k.c

/-- The counters with one lane's cell written (00_scope.md R15, `cnt[L] <- v`). -/
def Counters.set (k : Counters) (l : Lane) (x : Cell) : Counters :=
  match l with
  | .a => { k with a := x }
  | .b => { k with b := x }
  | .c => { k with c := x }

/-- A LACT's read of its counter: the value, or the reason it faults, in the order of the pseudocode of 40_lane_encoder.md R92. -/
def readCounter (k : Counters) (l : Lane) : Except LaneFault Int :=
  match k.get l with
  | .unset => .error ⟨.unresetCounter, l⟩
  | .val c => if -4 ≤ c ∧ c ≤ 4 then .ok c else .error ⟨.counterOutOfRange, l⟩

/-- The faults among some reads, in order (60_exceptions.md R143). -/
def faultsOf : List (Except LaneFault Int) → List LaneFault
  | [] => []
  | .error f :: rs => f :: faultsOf rs
  | .ok _ :: rs => faultsOf rs

/-- Raising a model fault: no counter is written, no word emitted, and the counters before the step are kept
(60_exceptions.md R143). -/
def raise (fs : List LaneFault) (s : State) : Host.Outcome State Fault Refusal := .fault (.laneFaults fs s.cnt)

/-- Writing one lane's counter. -/
def State.setCell (s : State) (l : Lane) (x : Cell) : State := { s with cnt := s.cnt.set l x }

/-- Writing all three counters at once (20_memory.md R47). -/
def State.setCounters (s : State) (k : Counters) : State := { s with cnt := k }

/-- Handing something over, after all that was handed over before (20_memory.md R56). -/
def State.deliver (s : State) (e : Event) : State := { s with log := s.log ++ [e] }

/-- Using up one free value. -/
def State.nextChoice (s : State) : State := { s with choice := s.choice + 1 }

/-- System reset: every counter becomes 0 (70_reset_and_hazards.md R160). -/
def systemReset (s : State) : State := s.setCounters .zero

/-- A tick with reset and no request: R160, and no word (70_reset_and_hazards.md R161). -/
def resetTick (s : State) : State := (systemReset s).deliver .resetTick

/-- A tick with reset and a request (70_reset_and_hazards.md R162): `o` is what the request alone does at `s`, and `emits` says which of the
two admitted outcomes is taken: (a) dropped, or (b) as `o` and then reset, where a fault of `o` stays that fault. -/
def resetOver (emits : Bool) (o : Host.Outcome State Fault Refusal) (s : State) : Host.Outcome State Fault Refusal :=
  if emits then
    match o with
    | .next t => .next ((systemReset t).deliver .resetAfterWord).nextChoice
    | .fault f => .fault f
    | .refused r => .refused r
  else .next (resetTick s).nextChoice

/-- Taking the next input the host presents, if there is one (10_state.md R26). -/
def takeInput (s : State) : Option (Input × State) :=
  match s.input with
  | [] => none
  | i :: rest => some (i, { s with input := rest })

/-- The input that presents a request. -/
def Input.ofRequest : Request → Input
  | .composer q => .req q
  | .lane l k => .lane l k

end Sys2Proof.Machine
end

