-- ==== Sys2Proof/Machine/Operands.lean ====
section
/-! DEFINITION. Operand assembly (30_encoding.md R64 to R66): colour components, control-table index, lane wiring. -/

namespace Sys2Proof.Machine

/-- r = P[23:16] (20_memory.md R41). -/
def red (p : Word32) : Byte := p.extractLsb' 16 8

/-- g = P[15:8] (20_memory.md R41). -/
def green (p : Word32) : Byte := p.extractLsb' 8 8

/-- b = P[7:0] (20_memory.md R41). -/
def blue (p : Word32) : Byte := p.extractLsb' 0 8

/-- The colour component a lane gets in ACT: lane A blue, lane B green, lane C red (30_encoding.md R66, 41_composer.md R121). -/
def component (l : Lane) (p : Word32) : Byte :=
  match l with
  | .a => blue p
  | .b => green p
  | .c => red p

/-- The index {c1, c0} of the control-code table (40_lane_encoder.md R96). -/
def ctrlIndex (c0 c1 : Bool) : BitVec 2 := BitVec.ofBool c1 ++ BitVec.ofBool c0

/-- The control bit c0 a lane gets in CTL: hsync for lane A, false for B and C (30_encoding.md R65). -/
def ctlC0 (l : Lane) (hsync : Bool) : Bool :=
  match l with
  | .a => hsync
  | .b => false
  | .c => false

/-- The control bit c1 a lane gets in CTL: vsync for lane A, false for B and C (30_encoding.md R65). -/
def ctlC1 (l : Lane) (vsync : Bool) : Bool :=
  match l with
  | .a => vsync
  | .b => false
  | .c => false

/-- The bits of a composite word that hold a lane's symbol (30_encoding.md R68). -/
def wordField (l : Lane) (w : Word32) : Symbol :=
  match l with
  | .a => w.extractLsb' 0 10
  | .b => w.extractLsb' 10 10
  | .c => w.extractLsb' 20 10

end Sys2Proof.Machine
end

