-- ==== Sys2Proof/Machine/Flags.lean ====
section
/-! DEFINITION. The one flag of the block, transient (10_state.md R27): Phase 1, which sets it (40_lane_encoder.md R82 to R86), and the choice of the
Phase-2 branch (R87, R88). -/

namespace Sys2Proof.Machine

/-- `px[i] := D[0] ^ D[1] ^ ... ^ D[i]` (40_lane_encoder.md R82). -/
def prefixBit (d : Byte) : Nat → Bool
  | 0 => d.getLsbD 0
  | i + 1 => (prefixBit d i).xor (d.getLsbD (i + 1))

/-- The prefix-XOR `px` of an input (40_lane_encoder.md R82). -/
def prefixXor (d : Byte) : Byte :=
  BitVec.ofBool (prefixBit d 7) ++ BitVec.ofBool (prefixBit d 6) ++ BitVec.ofBool (prefixBit d 5) ++
  BitVec.ofBool (prefixBit d 4) ++ BitVec.ofBool (prefixBit d 3) ++ BitVec.ofBool (prefixBit d 2) ++
  BitVec.ofBool (prefixBit d 1) ++ BitVec.ofBool (prefixBit d 0)

/-- `balance` (40_lane_encoder.md R83). -/
def balance (d : Byte) : Int := halfDisparity d

/-- `q0 := {1'b1, px}` (40_lane_encoder.md R84). -/
def tentative (d : Byte) : Intermediate := 1#1 ++ prefixXor d

/-- The inversion decision `inv` (40_lane_encoder.md R85). -/
def inverts (d : Byte) : Bool := decide (0 < balance d) || (decide (balance d = 0) && !d.getLsbD 0)

/-- The Phase-1 result `q_m` (40_lane_encoder.md R86). -/
def intermediate (d : Byte) : Intermediate :=
  if inverts d then tentative d ^^^ 0b110101010#9 else tentative d

/-- The "used XOR" flag, bit 8 of `q_m` (40_lane_encoder.md R86). -/
def usedXor (q : Intermediate) : Bool := q.getLsbD 8

/-- `q_m[7:0]`. -/
def lower8 (q : Intermediate) : Byte := q.extractLsb' 0 8

/-- `d`, the data disparity (40_lane_encoder.md R87). -/
def dataDisparity (q : Intermediate) : Int := halfDisparity (lower8 q)

/-- The three branches of Phase 2 (40_lane_encoder.md R88). -/
inductive Branch where
  /-- Branch 1: the counter or the data disparity is 0 (R89). -/
  | zero
  /-- Branch 2: both have the same sign (R90). -/
  | sameSign
  /-- Branch 3: they have opposite signs (R91). -/
  | oppositeSign
  deriving DecidableEq, Repr

/-- Branch selection, tested in the spec's order (40_lane_encoder.md R88). -/
def branch (c d : Int) : Branch :=
  if c = 0 ∨ d = 0 then .zero
  else if (0 < c ∧ 0 < d) ∨ (c < 0 ∧ d < 0) then .sameSign
  else .oppositeSign

end Sys2Proof.Machine
end

