-- ==== Sys2Proof/Machine/Lane.lean ====
section
/-! DEFINITION. The lane encoder: Phase 2 (40_lane_encoder.md R89 to R91) and the meanings of LACT (R92) and LCTL (R97). -/

namespace Sys2Proof.Machine

/-- `{out[9], out[8], out[7:0]}` (30_encoding.md R67). -/
def symbolOf (bit9 bit8 : Bool) (low : Byte) : Symbol := BitVec.ofBool bit9 ++ BitVec.ofBool bit8 ++ low

/-- Phase 2: the symbol and the counter's next value, from `q_m` and the counter's value (40_lane_encoder.md R89, R90, R91). -/
def phase2 (q : Intermediate) (c : Int) : Symbol × Int :=
  let flag := usedXor q
  let low := lower8 q
  let d := dataDisparity q
  match branch c d with
  | .zero => (symbolOf (!flag) flag (if flag then low else ~~~low), c + (if flag then d else -d))
  | .sameSign => (symbolOf true flag (~~~low), c + (if flag then 1 else 0) - d)
  | .oppositeSign => (symbolOf false flag low, c + (if flag then 0 else -1) + d)

/-- The symbol and next counter value of `Lane.encode_active`, a total function of the input and the counter
(40_lane_encoder.md R92, R94). -/
def encodeActive (d : Byte) (c : Int) : Symbol × Int := phase2 (intermediate d) c

/-- The symbol of `Lane.encode_control` (40_lane_encoder.md R97). -/
def encodeControl (c0 c1 : Bool) : Symbol := ctrlRom (ctrlIndex c0 c1)

/-- LACT at lane encoder `l` (40_lane_encoder.md R92): it reads its counter or faults, writes the next value, and returns the symbol. -/
def execLact (l : Lane) (d : Byte) (s : State) : Host.Outcome State Fault Refusal :=
  match readCounter s.cnt l with
  | .ok c => .next ((s.setCell l (.val (encodeActive d c).2)).deliver (.symbol l (encodeActive d c).1))
  | .error f => raise [f] s

/-- LCTL at lane encoder `l` (40_lane_encoder.md R97): its counter becomes 0, unread, and it returns the control code. -/
def execLctl (l : Lane) (c0 c1 : Bool) (s : State) : Host.Outcome State Fault Refusal :=
  .next ((s.setCell l (.val 0)).deliver (.symbol l (encodeControl c0 c1)))

end Sys2Proof.Machine
end

