-- ==== Sys2Proof/Machine/Composer.lean ====
section
/-! DEFINITION. The triple-lane composer: the meanings of ACT (41_composer.md R124) and CTL (R125). -/

namespace Sys2Proof.Machine

/-- ACT (41_composer.md R124): each lane encodes its colour component with its own counter, the three symbols go out in one word,
and the three counters are written together. If any lane's read fails, the whole step faults, listing every failing lane in
the order A, B, C (60_exceptions.md R143). -/
def execAct (p : Word32) (s : State) : Host.Outcome State Fault Refusal :=
  match readCounter s.cnt .a, readCounter s.cnt .b, readCounter s.cnt .c with
  | .ok ca, .ok cb, .ok cc =>
    let ra := encodeActive (component .a p) ca
    let rb := encodeActive (component .b p) cb
    let rc := encodeActive (component .c p) cc
    .next ((s.setCounters ⟨.val ra.2, .val rb.2, .val rc.2⟩).deliver (.word (pack ra.1 rb.1 rc.1)))
  | ra, rb, rc => raise (faultsOf [ra, rb, rc]) s

/-- The word of a CTL (41_composer.md R125). -/
def ctlWord (hsync vsync : Bool) : Word32 :=
  pack (encodeControl (ctlC0 .a hsync) (ctlC1 .a vsync))
    (encodeControl (ctlC0 .b hsync) (ctlC1 .b vsync))
    (encodeControl (ctlC0 .c hsync) (ctlC1 .c vsync))

/-- CTL (41_composer.md R125): all three counters become 0, none is read, and the three control codes go out in one word. -/
def execCtl (hsync vsync : Bool) (s : State) : Host.Outcome State Fault Refusal :=
  .next ((s.setCounters .zero).deliver (.word (ctlWord hsync vsync)))

end Sys2Proof.Machine
end

