-- ==== Sys2Proof/Machine/Dispatch.lean ====
section
/-! DEFINITION. One arm per operation of opcode_table.json. -/

namespace Sys2Proof.Machine

/-- What an operation does at a state. -/
def exec (i : Instr) (s : State) : Host.Outcome State Fault Refusal :=
  match i with
  | .act p => Sys2Proof.Machine.execAct p s
  | .ctl hsync vsync => Sys2Proof.Machine.execCtl hsync vsync s
  | .lact l d => Sys2Proof.Machine.execLact l d s
  | .lctl l c0 c1 => Sys2Proof.Machine.execLctl l c0 c1 s

end Sys2Proof.Machine
end

