-- ==== Sys2Proof/Machine/Step.lean ====
section
/-! DEFINITION. One step: one tick of the block (41_composer.md R130), or one request to a model of one lane encoder. -/

namespace Sys2Proof.Machine

/-- What one input does at a state (41_composer.md R130). -/
def tick (i : Input) (t : State) : Host.Outcome State Fault Refusal :=
  match i with
  | .reset => .next (resetTick t)
  | .req q => exec (decode (.composer q)) t
  | .resetReq q => resetOver (Config.resetReqEmits t.choice) (exec (decode (.composer q)) t) t
  | .lane l k => exec (decode (.lane l k)) t

/-- The step: the host's next input is taken and performed (41_composer.md R130). With no input left there is no tick
(93_implementation_defined.md U11). -/
def step (s : State) : Host.Outcome State Fault Refusal :=
  match takeInput s with
  | none => .refused .noRequest
  | some (i, t) => tick i t

/-- The state with one more input, which the host presents at the very next step. -/
def State.present (s : State) (i : Input) : State := { s with input := i :: s.input }

/-- The state in which the host presents a table word's request at the very next step (log 1); a number that is no request changes
nothing. -/
def State.withFetchWord (s : State) (nbits w : Nat) : State :=
  match tableRequest nbits w with
  | .ok r => s.present (.ofRequest r)
  | .error _ => s

end Sys2Proof.Machine
end

