-- ==== Sys2Proof/Machine/Mealy.lean ====
section
/-! DEFINITION. The block as the spec's own step relation writes it (41_composer.md R130), over the counters and one input alone. The machine of
Step.lean is stated to refine it. -/

namespace Sys2Proof.Machine

/-- `Outcome` of 41_composer.md R130. -/
inductive BlockOutcome where
  | next (k : Counters) (word : Option Word32)
  | fault (reasons : List LaneFault) (k : Counters)
  deriving DecidableEq, Repr

/-- The LACT precondition of one lane: none if it holds, else the (reason, lane) pair (41_composer.md R130). -/
def preconditionFault (k : Counters) (l : Lane) : Option LaneFault :=
  match k.get l with
  | .unset => some ⟨.unresetCounter, l⟩
  | .val c => if c < -4 ∨ 4 < c then some ⟨.counterOutOfRange, l⟩ else none

/-- What LACT does to a lane's cell that holds a value (41_composer.md R130). It is used only where no precondition fails, so the first
line is never reached there. -/
def mealyLane (k : Counters) (l : Lane) (d : Byte) : Symbol × Cell :=
  match k.get l with
  | .unset => (0, .unset)
  | .val c => ((encodeActive d c).1, .val (encodeActive d c).2)

/-- `step(s, Req(Q))` (41_composer.md R130). -/
def mealyReq (k : Counters) (q : Req35) : BlockOutcome :=
  if q.getLsbD 34 then
    match [Lane.a, Lane.b, Lane.c].filterMap (preconditionFault k) with
    | [] =>
      let ra := mealyLane k .a (q.extractLsb' 0 8)
      let rb := mealyLane k .b (q.extractLsb' 8 8)
      let rc := mealyLane k .c (q.extractLsb' 16 8)
      .next ⟨ra.2, rb.2, rc.2⟩ (some (pack ra.1 rb.1 rc.1))
    | faults => .fault faults k
  else
    .next .zero (some (pack (ctrlRom (q.extractLsb' 32 2)) (ctrlRom 0#2) (ctrlRom 0#2)))

/-- `steps(s, i)`: the admitted outcomes of one input (41_composer.md R130). A lane encoder's request is no input of the block
(92_eei_decisions.md D22), so it has none. -/
def mealySteps (k : Counters) : Input → List BlockOutcome
  | .reset => [.next .zero none]
  | .req q => [mealyReq k q]
  | .resetReq q =>
    [.next .zero none,
     match mealyReq k q with
     | .next _ w => .next .zero w
     | .fault fs k' => .fault fs k']
  | .lane _ _ => []

end Sys2Proof.Machine
end

