-- ==== Sys2Proof/Machine/Oracle.lean ====
section
/-! DEFINITION. Oracles the spec gives beside the block, no part of it: the inverse transform (40_lane_encoder.md R103), transitions and control
codes (R99), and the counter's meaning read off the delivered symbols (10_state.md R22). -/

namespace Sys2Proof.Machine

/-- `q` of the decoder: the low byte, complemented back (40_lane_encoder.md R103). -/
def oracleLow (out : Symbol) : Byte :=
  if out.getLsbD 9 then ~~~(out.extractLsb' 0 8) else out.extractLsb' 0 8

/-- Bit i of the decoded byte (40_lane_encoder.md R103). -/
def oracleBit (out : Symbol) : Nat → Bool
  | 0 => (oracleLow out).getLsbD 0
  | i + 1 =>
    let x := ((oracleLow out).getLsbD (i + 1)).xor ((oracleLow out).getLsbD i)
    if out.getLsbD 8 then x else !x

/-- `decode(out)`: the input byte, from the symbol alone (40_lane_encoder.md R103). -/
def oracleDecode (out : Symbol) : Byte :=
  BitVec.ofBool (oracleBit out 7) ++ BitVec.ofBool (oracleBit out 6) ++ BitVec.ofBool (oracleBit out 5) ++
  BitVec.ofBool (oracleBit out 4) ++ BitVec.ofBool (oracleBit out 3) ++ BitVec.ofBool (oracleBit out 2) ++
  BitVec.ofBool (oracleBit out 1) ++ BitVec.ofBool (oracleBit out 0)

/-- The number of positions i < n where bits i and i + 1 differ (40_lane_encoder.md R99). -/
def transitionsBelow {w : Nat} (v : BitVec w) : Nat → Nat
  | 0 => 0
  | n + 1 => transitionsBelow v n + ((v.getLsbD n).xor (v.getLsbD (n + 1))).toNat

/-- The transitions of a whole value (40_lane_encoder.md R99). -/
def transitions {w : Nat} (v : BitVec w) : Nat := transitionsBelow v (w - 1)

/-- Whether a symbol is one of the four control codes (40_lane_encoder.md R96). -/
def isControlCode (s : Symbol) : Bool :=
  s == ctrlRom 0#2 || s == ctrlRom 1#2 || s == ctrlRom 2#2 || s == ctrlRom 3#2

/-- The disparity account of one lane after one more symbol: a control code sets it to 0, a data symbol adds half of its ones minus its zeros
(10_state.md R22). -/
def accountSymbol (acc : Int) (s : Symbol) : Int :=
  if isControlCode s then 0 else acc + ((popcount s : Int) - 5)

/-- The disparity account of lane `l` after one more event. -/
def accountEvent (l : Lane) (acc : Int) : Event → Int
  | .word w => accountSymbol acc (wordField l w)
  | .resetTick => 0
  | .resetAfterWord => 0
  | .symbol l' s => if l' = l then accountSymbol acc s else acc

/-- The disparity account of lane `l` over a whole log: half of (ones − zeros) over the data symbols since the last reset or control
code (10_state.md R22). -/
def account (l : Lane) (log : List Event) : Int := log.foldl (accountEvent l) 0

end Sys2Proof.Machine
end

