-- ==== Sys2Proof/Machine/Pins.lean ====
section
/-! DEFINITION. Views of a run through the parameters of 00_scope.md R11: what the output pins show, how a counter is stored, and how a
symbol is put on the wire. Each takes its parameter as an argument; Config names the implementation's own. -/

namespace Sys2Proof.Machine

/-- What each tick of the block delivered, in tick order: a word, or none in a reset tick (41_composer.md R130,
20_memory.md R56). Lane-level symbols are no ticks of the block. -/
def tickWords : List Event → List (Option Word32)
  | [] => []
  | .word w :: es => some w :: tickWords es
  | .resetTick :: es => none :: tickWords es
  | .resetAfterWord :: es => tickWords es
  | .symbol _ _ :: es => tickWords es

/-- The words delivered, in order: with the final counters, the observation of a run (92_eei_decisions.md D23). -/
def wordsOf : List Event → List Word32
  | [] => []
  | .word w :: es => w :: wordsOf es
  | .resetTick :: es => wordsOf es
  | .resetAfterWord :: es => wordsOf es
  | .symbol _ _ :: es => wordsOf es

/-- What the pins `out_word` show at tick `t`: the word of the tick LATENCY earlier, or IDLE_WORD when that tick delivered none
(70_reset_and_hazards.md R166, R171). Log 8. -/
def pinWord (latency : Nat) (idle : Word32) (log : List Event) (t : Nat) : Word32 :=
  if t < latency then idle
  else
    match (tickWords log)[t - latency]? with
    | some (some w) => w
    | _ => idle

/-- A counter's value as an implementation of CNT_WIDTH bits stores it, in two's complement (10_state.md R21). Log 9. -/
def storedCounter (width : Nat) (v : Int) : BitVec width := BitVec.ofInt width v

/-- The bits of a symbol in the order SERIAL_ORDER sends them (20_memory.md R44). Log 11. -/
def wireBits (order : List (Fin 10)) (s : Symbol) : List Bool := order.map fun i => s.getLsbD i.val

end Sys2Proof.Machine
end

