-- ==== Sys2Proof/Safety.lean ====
section
/-! DEFINITION. What counts as a safe state or a safe run, and the words in which the statements speak of an operation's
result, written from the rules and not from the meanings. -/

namespace Sys2Proof.Machine

/-- A cell that a LACT may read: a value in [-4, 4] (10_state.md R21). -/
def Cell.ready : Cell → Bool
  | .unset => false
  | .val v => decide (-4 ≤ v ∧ v ≤ 4)

/-- A cell the block itself can hold: Unset, or a value in [-4, 4] (10_state.md R20, R21). -/
def Cell.legal : Cell → Bool
  | .unset => true
  | .val v => decide (-4 ≤ v ∧ v ≤ 4)

/-- Every counter may be read (70_reset_and_hazards.md R165). -/
def Counters.Ready (k : Counters) : Prop := ∀ l : Lane, (k.get l).ready = true

/-- Every counter is legal (40_lane_encoder.md R93). -/
def Counters.Legal (k : Counters) : Prop := ∀ l : Lane, (k.get l).legal = true

/-- Every counter holds the disparity account of its lane's delivered symbols (10_state.md R22). -/
def State.CountersMeanDisparity (s : State) : Prop :=
  ∀ (l : Lane) (v : Int), s.cnt.get l = .val v → v = account l s.log

/-- Bits 31 and 30 of every word delivered so far are 0 (41_composer.md R128). -/
def State.WordsTopZero (s : State) : Prop :=
  ∀ w : Word32, Event.word w ∈ s.log → w.getLsbD 31 = false ∧ w.getLsbD 30 = false

/-- The inputs of the composite block: all but a lane encoder's own requests (92_eei_decisions.md D22). -/
def Input.ofBlock : Input → Bool
  | .reset => true
  | .req _ => true
  | .resetReq _ => true
  | .lane _ _ => false

/-- The host's boot duty on a stream of block inputs: a reset or a CTL comes before the first ACT (70_reset_and_hazards.md R165). A first tick with reset
and an ACT does not meet it, since its outcome (b) is the ACT's fault (R162). -/
def boots : List Input → Bool
  | [] => true
  | .reset :: rest => rest.all Input.ofBlock
  | .req q :: rest => !reqSelect q && rest.all Input.ofBlock
  | .resetReq q :: rest => !reqSelect q && rest.all Input.ofBlock
  | .lane _ _ :: _ => false

/-- Phase 2 as the rules state it (40_lane_encoder.md R88 to R91), for a Phase-1 result `q`, counter `c`, output `out` and next
counter `c'`; `x` is the data disparity. -/
def Phase2Rule (q : Intermediate) (c : Int) (out : Symbol) (c' : Int) : Prop :=
  let flag := q.getLsbD 8
  let low := q.extractLsb' 0 8
  let x : Int := (popcount low : Int) - 4
  ((c = 0 ∨ x = 0) →
    out.getLsbD 9 = !flag ∧ out.getLsbD 8 = flag ∧ out.extractLsb' 0 8 = (if flag then low else ~~~low) ∧
      c' = c + (if flag then x else -x)) ∧
  ((0 < c ∧ 0 < x) ∨ (c < 0 ∧ x < 0) →
    out.getLsbD 9 = true ∧ out.getLsbD 8 = flag ∧ out.extractLsb' 0 8 = ~~~low ∧
      c' = c + (if flag then 1 else 0) - x) ∧
  ((0 < c ∧ x < 0) ∨ (c < 0 ∧ 0 < x) →
    out.getLsbD 9 = false ∧ out.getLsbD 8 = flag ∧ out.extractLsb' 0 8 = low ∧
      c' = c + (if flag then 0 else -1) + x)

/-- The inversion decision in terms of popcount (40_lane_encoder.md R85). -/
def InvRule (d : Byte) : Prop := 4 < popcount d ∨ (popcount d = 4 ∧ d.getLsbD 0 = false)

/-- Phase 1 as a chain (40_lane_encoder.md R82, R86): bit 0 is the input's; each later bit is the XOR of the one before it and the input's bit, or the
XNOR when the rule inverts; bit 8 is 1 exactly when it does not. -/
def Phase1Rule (d : Byte) (q : Intermediate) : Prop :=
  q.getLsbD 0 = d.getLsbD 0 ∧
  (InvRule d → q.getLsbD 8 = false ∧
    ∀ i : Nat, i < 7 → q.getLsbD (i + 1) = !((q.getLsbD i).xor (d.getLsbD (i + 1)))) ∧
  (¬ InvRule d → q.getLsbD 8 = true ∧
    ∀ i : Nat, i < 7 → q.getLsbD (i + 1) = (q.getLsbD i).xor (d.getLsbD (i + 1)))

/-- Three LACTs, one after another in the order given, each on its lane's colour component (41_composer.md R126). -/
def runLacts (p : Word32) : List Lane → State → Host.Outcome State Fault Refusal
  | [], s => .next s
  | l :: ls, s =>
    match exec (.lact l (component l p)) s with
    | .next t => runLacts p ls t
    | .fault f => .fault f
    | .refused r => .refused r

/-- Three LCTLs, one after another in the order given, each with its lane's control bits (41_composer.md R125, R126). -/
def runLctls (hsync vsync : Bool) : List Lane → State → Host.Outcome State Fault Refusal
  | [], s => .next s
  | l :: ls, s =>
    match exec (.lctl l (ctlC0 l hsync) (ctlC1 l vsync)) s with
    | .next t => runLctls hsync vsync ls t
    | .fault f => .fault f
    | .refused r => .refused r

/-- What a tick with this outcome of the block leaves in the log: its word or a reset tick, and the mark of a reset beside a word. -/
def tickEvents : Input → Option Word32 → List Event
  | .resetReq _, some w => [.word w, .resetAfterWord]
  | _, some w => [.word w]
  | _, none => [.resetTick]

/-- An outcome of the machine shows an outcome of the block (41_composer.md R130): the same counters, and the word in the log; or the same fault with
the counters kept. -/
def Shows (s : State) (i : Input) (o : Host.Outcome State Fault Refusal) : BlockOutcome → Prop
  | .next k w => ∃ t, o = .next t ∧ t.cnt = k ∧ t.log = s.log ++ tickEvents i w
  | .fault fs k => o = .fault (.laneFaults fs k)

end Sys2Proof.Machine
end

