-- ==== Sys2Proof/Certificates/Slice0/Obligations.lean ====
section
/-! DEFINITION. The statements for the provers. They speak of what is handed over through the model's own field `log`: an appended event stands for
the spec's `emit(w)` or for the symbol a lane operation returns (00_scope.md R15, 40_lane_encoder.md R92, R97; log 2), and the host's next input is the
head of the model's own field `input` (log 1). -/

section
open Sys2Proof Sys2Proof.Machine

/-! ### Requests, decoding, encoding -/

/-- Every operation comes back from its canonical request: no operand bit is dropped (30_encoding.md section 6, R72). -/
def Obligations.DecodeEncodeRoundTrip : Prop :=
  ∀ i : Instr, i.WellFormed = true → decode (encode i) = i

/-- Re-encoding what was decoded gives the request back with its ignored bits cleared, and with every other bit as it was (30_encoding.md R70, R72;
the upper byte of an ACT's pixel is an operand in the spec's syntax, and stays: log 15). -/
def Obligations.EncodeDecodeClearsIgnoredBits : Prop :=
  (∀ q : Req35, ∃ q' : Req35, encode (decode (.composer q)) = .composer q' ∧
    ∀ k : Nat, q'.getLsbD k =
      if q.getLsbD 34 then (if k = 33 ∨ k = 32 then false else q.getLsbD k)
      else (if k < 32 then false else q.getLsbD k)) ∧
  (∀ (l : Lane) (r : LReq11), ∃ r' : LReq11, encode (decode (.lane l r)) = .lane l r' ∧
    ∀ k : Nat, r'.getLsbD k =
      if r.getLsbD 10 then (if k = 9 ∨ k = 8 then false else r.getLsbD k)
      else (if k < 8 then false else r.getLsbD k))

/-- The select bit alone decides the operation, every value of a request is one, the operands are the fields of the formats, and a pixel's
colour components are its bytes (30_encoding.md R62, R63, R64, R69; the formats are the spec's own decision D3). -/
def Obligations.RequestFieldsDecode : Prop :=
  (∀ q : Req35, q.getLsbD 34 = true → ∃ p : Word32, decode (.composer q) = .act p ∧
    component .a p = q.extractLsb' 0 8 ∧ component .b p = q.extractLsb' 8 8 ∧ component .c p = q.extractLsb' 16 8 ∧
    p = q.extractLsb' 0 32) ∧
  (∀ q : Req35, q.getLsbD 34 = false → decode (.composer q) = .ctl (q.getLsbD 32) (q.getLsbD 33)) ∧
  (∀ (l : Lane) (k : LReq11), k.getLsbD 10 = true → decode (.lane l k) = .lact l (k.extractLsb' 0 8)) ∧
  (∀ (l : Lane) (k : LReq11), k.getLsbD 10 = false → decode (.lane l k) = .lctl l (k.getLsbD 8) (k.getLsbD 9))

/-- A few words of 95_test_vectors.md section 2.5 and 30_encoding.md R72, decoded; and table words that are no request, refused (log 6). -/
def Obligations.KnownWordsDecode : Prop :=
  decode (.composer 0b1_00_00000000_00010010_00110100_01010110#35) = .act 0x00123456 ∧
  decode (.composer 0b0_01_11011110_10101101_10111110_11101111#35) = .ctl true false ∧
  decode (.lane .b 0b1_00_00111100#11) = .lact .b 0x3C ∧
  decode (.lane .c 0b0_10_00000000#11) = .lctl .c false true ∧
  decodeTableWord 40 0x7FFABCDEF = some (.act 0xFFABCDEF) ∧
  decodeTableWord 40 0x800000000 = none ∧ decodeTableWord 24 0 = none

/-- Ignored request bits have no effect: two requests that agree on the bits 30_encoding.md R70 does not list do the same at every
state (the spec's own decision D4). -/
def Obligations.IgnoredBitsHaveNoEffect : Prop :=
  (∀ (q q' : Req35) (s : State), q.getLsbD 34 = q'.getLsbD 34 →
    (q.getLsbD 34 = true → ∀ k : Nat, k < 24 → q.getLsbD k = q'.getLsbD k) →
    (q.getLsbD 34 = false → q.getLsbD 33 = q'.getLsbD 33 ∧ q.getLsbD 32 = q'.getLsbD 32) →
    exec (decode (.composer q)) s = exec (decode (.composer q')) s) ∧
  (∀ (l : Lane) (r r' : LReq11) (s : State), r.getLsbD 10 = r'.getLsbD 10 →
    (r.getLsbD 10 = true → ∀ k : Nat, k < 8 → r.getLsbD k = r'.getLsbD k) →
    (r.getLsbD 10 = false → r.getLsbD 9 = r'.getLsbD 9 ∧ r.getLsbD 8 = r'.getLsbD 8) →
    exec (decode (.lane l r)) s = exec (decode (.lane l r')) s)

/-! ### The step -/

/-- A step runs the decoded operation at the state without the input it took (30_encoding.md R61, R69). Three of its parts are the model's own
choices: that the host's next input is the head of the field `input` (log 1); that a request may come to the pins of one lane encoder, which R130 has no input
for and D22 bars from the composite block (log 4); and that beside a reset `resetOver` takes ONE of the outcomes R130 admits, picked by the free value
`Config.resetReqEmits` (log 3). -/
def Obligations.StepRunsDecodedRequest : Prop :=
  ∀ (s : State) (rest : List Input),
    (∀ q : Req35, s.input = .req q :: rest →
      step s = exec (decode (.composer q)) { s with input := rest }) ∧
    (∀ (l : Lane) (k : LReq11), s.input = .lane l k :: rest →
      step s = exec (decode (.lane l k)) { s with input := rest }) ∧
    (∀ q : Req35, s.input = .resetReq q :: rest →
      step s = resetOver (Config.resetReqEmits s.choice) (exec (decode (.composer q)) { s with input := rest })
        { s with input := rest })

/-- A table word placed as the host's next request is what the very next step runs. This is the model's own placing (log 1), with its own reading of a
table word (log 6) and its own lane for a word that names none (log 4). -/
def Obligations.PlacedTableWordRunsNext : Prop :=
  ∀ (s : State) (nbits w : Nat) (i : Instr), decodeTableWord nbits w = some i →
    step (s.withFetchWord nbits w) = exec i s

/-- A step with no input left is refused, and that is the only refusal of a step (30_encoding.md section 5; the refusal is that of
93_implementation_defined.md U11: log 7). -/
def Obligations.OnlyNoInputIsRefused : Prop :=
  ∀ s : State,
    (s.input = [] → step s = .refused .noRequest) ∧
    (s.input ≠ [] → ∀ r : Refusal, step s ≠ .refused r)

/-- A reset tick sets every counter to 0, whatever it was (70_reset_and_hazards.md R160), and emits no word, which is R161, the spec's own
decision D7. That no word is emitted is read off the model's field `log` (log 2), and the tick's input off its field `input` (log 1). -/
def Obligations.ResetTickZeroesCounters : Prop :=
  ∀ (s : State) (rest : List Input), s.input = .reset :: rest →
    ∃ t : State, step s = .next t ∧ t.cnt.a = .val 0 ∧ t.cnt.b = .val 0 ∧ t.cnt.c = .val 0 ∧
      t.input = rest ∧ wordsOf t.log = wordsOf s.log ∧ tickWords t.log = tickWords s.log ++ [none]

/-- A tick with reset and a request ends in one of the outcomes of 70_reset_and_hazards.md R162, whatever the free value is (log 3): the request
dropped and the counters 0; its word emitted and the counters then 0; or its fault. -/
def Obligations.ResetBesideRequest : Prop :=
  ∀ (s : State) (q : Req35) (rest : List Input), s.input = .resetReq q :: rest →
    (∃ t : State, step s = .next t ∧ t.cnt = ⟨.val 0, .val 0, .val 0⟩ ∧ wordsOf t.log = wordsOf s.log) ∨
    (∃ (t u : State) (w : Word32), exec (decode (.composer q)) { s with input := rest } = .next u ∧
      u.log = s.log ++ [.word w] ∧ step s = .next t ∧ t.cnt = ⟨.val 0, .val 0, .val 0⟩ ∧
      wordsOf t.log = wordsOf s.log ++ [w]) ∨
    (∃ f : Fault, exec (decode (.composer q)) { s with input := rest } = .fault f ∧ step s = .fault f)

/-- The machine refines the block: with a block input next, what a step does is an outcome that the spec's step relation admits
(41_composer.md section 5, R130; the shape of the step is the spec's own decision D1). -/
def Obligations.StepRefinesBlockRelation : Prop :=
  ∀ (s : State) (i : Input) (rest : List Input), s.input = i :: rest → i.ofBlock = true →
    ∃ o : BlockOutcome, o ∈ mealySteps s.cnt i ∧ Shows s i (step s) o

/-- Every outcome that the spec's step relation admits of a tick with reset and a request is taken for one value of the free choice
(41_composer.md section 5, R130; 92_eei_decisions.md D8). -/
def Obligations.AdmittedResetOutcomesAreReached : Prop :=
  ∀ (s : State) (q : Req35) (o : BlockOutcome), o ∈ mealySteps s.cnt (.resetReq q) →
    ∃ emits : Bool, Shows s (.resetReq q) (resetOver emits (exec (decode (.composer q)) s) s) o

/-- What was delivered stays, in order, and a step adds to its end (20_memory.md R56). -/
def Obligations.DeliveredWordsStayInOrder : Prop :=
  ∀ s t : State, step s = .next t →
    (∃ es : List Event, t.log = s.log ++ es) ∧ (∃ ws : List Word32, wordsOf t.log = wordsOf s.log ++ ws ∧ ws.length ≤ 1)

/-- With ready counters, a composer request completes, and hands over exactly one word (41_composer.md R127). -/
def Obligations.OneWordPerRequest : Prop :=
  ∀ (s : State) (q : Req35) (rest : List Input), s.cnt.Ready → s.input = .req q :: rest →
    ∃ (t : State) (w : Word32), step s = .next t ∧ t.log = s.log ++ [.word w] ∧ t.input = rest

/-! ### LACT -/

/-- LACT completes on every input byte and every counter in [-4, 4] (40_lane_encoder.md R92, R94), with the Phase-1 result (R82, R85, R86) and the branch of
Phase 2 (R88, R89, R90, R91) that the rules give; it changes its own counter, hands over its symbol, and does nothing else (R92). Phase 1 is said as the XOR or XNOR
chain: the XNOR chain is R86's sentence "When inv is true, q_m[7:0] is the prefix-XNOR of D", which the spec marks as derived. The symbol is read off the model's
field `log` (log 2). -/
def Obligations.LactFollowsPhaseRules : Prop :=
  ∀ (l : Lane) (d : Byte) (s : State) (c : Int), s.cnt.get l = .val c → -4 ≤ c → c ≤ 4 →
    ∃ (q : Intermediate) (out : Symbol) (c' : Int), Phase1Rule d q ∧ Phase2Rule q c out c' ∧
      exec (.lact l d) s = .next { s with cnt := s.cnt.set l (.val c'), log := s.log ++ [.symbol l out] }

/-- LACT faults on a counter it may not compute with, in the two ways of the spec's decisions D6 and D15, and the fault keeps the counters
(60_exceptions.md R141, R142, R143; logs 5 and 13). -/
def Obligations.LactFaultsOnBadCounter : Prop :=
  ∀ (l : Lane) (d : Byte) (s : State),
    (s.cnt.get l = .unset → exec (.lact l d) s = .fault (.laneFaults [⟨.unresetCounter, l⟩] s.cnt)) ∧
    (∀ v : Int, s.cnt.get l = .val v → (v < -4 ∨ 4 < v) →
      exec (.lact l d) s = .fault (.laneFaults [⟨.counterOutOfRange, l⟩] s.cnt))

/-- An in-range counter stays in range under LACT, and from 0 one LACT reaches each of the nine values (40_lane_encoder.md section 5, R93, which
the spec derives from R88 to R91). -/
def Obligations.LactKeepsCounterBound : Prop :=
  (∀ (l : Lane) (d : Byte) (s : State), (s.cnt.get l).ready = true →
    ∃ t : State, exec (.lact l d) s = .next t ∧ (t.cnt.get l).ready = true) ∧
  (∀ (l : Lane) (s : State), s.cnt.get l = .val 0 → ∀ v : Int, -4 ≤ v → v ≤ 4 →
    ∃ (d : Byte) (t : State), exec (.lact l d) s = .next t ∧ t.cnt.get l = .val v)

/-- The fields of a LACT's symbol: bit 8 is the flag, bit 9 tells whether the low byte is complemented, and the counter moves by the ones minus five
(40_lane_encoder.md section 5, R95, which the spec derives from R89 to R91). -/
def Obligations.LactSymbolFields : Prop :=
  ∀ (l : Lane) (d : Byte) (s t : State) (c c' : Int) (out : Symbol),
    exec (.lact l d) s = .next t → s.cnt.get l = .val c → t.cnt.get l = .val c' →
    t.log = s.log ++ [.symbol l out] →
    ∃ q : Intermediate, Phase1Rule d q ∧ out.getLsbD 8 = q.getLsbD 8 ∧
      (out.getLsbD 9 = true ↔ out.extractLsb' 0 8 = ~~~(q.extractLsb' 0 8)) ∧
      (out.getLsbD 9 = false ↔ out.extractLsb' 0 8 = q.extractLsb' 0 8) ∧
      (popcount out : Int) - 5 = c' - c

/-- A LACT leaves its counter as it was exactly when its symbol has five ones, and then the same LACT again gives the same symbol and the
same counter; a second LCTL or CTL gives what the first gave (20_memory.md section 3, R48, which the spec derives). -/
def Obligations.RepeatedOperations : Prop :=
  (∀ (l : Lane) (d : Byte) (s t : State) (out : Symbol), exec (.lact l d) s = .next t →
    t.log = s.log ++ [.symbol l out] →
    (t.cnt.get l = s.cnt.get l ↔ popcount out = 5) ∧
    (popcount out = 5 → exec (.lact l d) t = .next { t with log := t.log ++ [.symbol l out] })) ∧
  (∀ (l : Lane) (c0 c1 : Bool) (s t : State) (out : Symbol), exec (.lctl l c0 c1) s = .next t →
    t.log = s.log ++ [.symbol l out] →
    exec (.lctl l c0 c1) t = .next { t with log := t.log ++ [.symbol l out] }) ∧
  (∀ (hs vs : Bool) (s t : State) (w : Word32), exec (.ctl hs vs) s = .next t → t.log = s.log ++ [.word w] →
    exec (.ctl hs vs) t = .next { t with log := t.log ++ [.word w] })

/-- The input byte can be recovered from a LACT's symbol alone, whatever the counter was, so LACT is injective in it (40_lane_encoder.md section 5,
R103, which the spec derives; the decoder is the spec's oracle, no part of the block). -/
def Obligations.LactInputRecoverable : Prop :=
  (∀ (l : Lane) (d : Byte) (s t : State) (out : Symbol), exec (.lact l d) s = .next t →
    t.log = s.log ++ [.symbol l out] → oracleDecode out = d) ∧
  (∀ (l : Lane) (d d' : Byte) (s t t' : State), exec (.lact l d) s = .next t → exec (.lact l d') s = .next t' →
    t.log = t'.log → d = d')

/-- No LACT gives a control code; a LACT's symbol has at most 5 transitions and its Phase-1 byte at most 3; a control code has 7 or 8
(40_lane_encoder.md section 5, R99, which the spec derives). -/
def Obligations.DataAndControlSymbolsDiffer : Prop :=
  (∀ (l : Lane) (d : Byte) (s t : State) (out : Symbol), exec (.lact l d) s = .next t →
    t.log = s.log ++ [.symbol l out] →
    isControlCode out = false ∧ transitions out ≤ 5 ∧
    ∃ q : Intermediate, Phase1Rule d q ∧ transitions (q.extractLsb' 0 8) ≤ 3) ∧
  (∀ (l : Lane) (c0 c1 : Bool) (s t : State) (out : Symbol), exec (.lctl l c0 c1) s = .next t →
    t.log = s.log ++ [.symbol l out] →
    isControlCode out = true ∧ (transitions out = 7 ∨ transitions out = 8))

/-- LACT gives exactly 460 distinct symbols over all inputs and counters (40_lane_encoder.md section 5, R99, which the spec derives). -/
def Obligations.LactSymbolCount : Prop :=
  ∃ syms : List Symbol, syms.Nodup ∧ syms.length = 460 ∧
    ∀ out : Symbol, out ∈ syms ↔
      ∃ (l : Lane) (d : Byte) (s t : State), exec (.lact l d) s = .next t ∧ t.log = s.log ++ [.symbol l out]

/-- A LACT's symbol depends on the counter through its sign only, and not at all where the data disparity is 0, which it is for 52 inputs; among three
symbols of one input, two are equal (40_lane_encoder.md section 5, R98, which the spec derives). -/
def Obligations.LactSymbolDependsOnSign : Prop :=
  (∀ (l : Lane) (d : Byte) (s s' t t' : State) (c c' : Int) (out out' : Symbol),
    exec (.lact l d) s = .next t → exec (.lact l d) s' = .next t' →
    s.cnt.get l = .val c → s'.cnt.get l = .val c' →
    t.log = s.log ++ [.symbol l out] → t'.log = s'.log ++ [.symbol l out'] →
    (c < 0 ∧ c' < 0) ∨ (c = 0 ∧ c' = 0) ∨ (0 < c ∧ 0 < c') ∨
      (∃ q : Intermediate, Phase1Rule d q ∧ popcount (q.extractLsb' 0 8) = 4) → out = out') ∧
  (∀ (l : Lane) (d : Byte) (s s' s'' t t' t'' : State) (out out' out'' : Symbol),
    exec (.lact l d) s = .next t → exec (.lact l d) s' = .next t' → exec (.lact l d) s'' = .next t'' →
    t.log = s.log ++ [.symbol l out] → t'.log = s'.log ++ [.symbol l out'] → t''.log = s''.log ++ [.symbol l out''] →
    out = out' ∨ out = out'' ∨ out' = out'') ∧
  ((List.range 256).filter fun n => dataDisparity (intermediate (BitVec.ofNat 8 n)) = 0).length = 52

/-! ### LCTL -/

/-- LCTL is the request with K[10] = 0, and completes on every counter, even Unset or out of range: it gives the control code of (c1, c0), sets its
own counter to 0, and does nothing else (40_lane_encoder.md R97 with the table of R96). -/
def Obligations.LctlGivesControlCode : Prop :=
  (∀ (l : Lane) (k : LReq11), k.getLsbD 10 = false → decode (.lane l k) = .lctl l (k.getLsbD 8) (k.getLsbD 9)) ∧
  ∀ (l : Lane) (c0 c1 : Bool) (s : State),
    exec (.lctl l c0 c1) s = .next { s with
      cnt := s.cnt.set l (.val 0),
      log := s.log ++ [.symbol l (match c1, c0 with
        | true, true => 0b1010101011
        | true, false => 0b0101010100
        | false, true => 0b0010101011
        | false, false => 0b1101010100)] }

/-- The control-code table: its four codewords and how many ones each has (40_lane_encoder.md R96). -/
def Obligations.ControlCodeTable : Prop :=
  ctrlRom 0b11 = 0b1010101011 ∧ ctrlRom 0b10 = 0b0101010100 ∧
  ctrlRom 0b01 = 0b0010101011 ∧ ctrlRom 0b00 = 0b1101010100 ∧
  popcount (ctrlRom 0b11) = 6 ∧ popcount (ctrlRom 0b10) = 4 ∧
  popcount (ctrlRom 0b01) = 5 ∧ popcount (ctrlRom 0b00) = 5

/-! ### ACT -/

/-- ACT completes whenever its three counters are in [-4, 4]: each lane's field of the word and each lane's next counter follow the lane rules for
its colour component, bits 31 and 30 of the word are 0, and nothing else changes (41_composer.md R121, R123, R124). Phase 1 is said as the XOR or XNOR chain of
40_lane_encoder.md R86, which the spec marks as derived. -/
def Obligations.ActFollowsLaneRules : Prop :=
  ∀ (p : Word32) (s : State) (ca cb cc : Int), s.cnt = ⟨.val ca, .val cb, .val cc⟩ →
    -4 ≤ ca → ca ≤ 4 → -4 ≤ cb → cb ≤ 4 → -4 ≤ cc → cc ≤ 4 →
    ∃ (w : Word32) (ca' cb' cc' : Int) (qa qb qc : Intermediate),
      exec (.act p) s = .next { s with cnt := ⟨.val ca', .val cb', .val cc'⟩, log := s.log ++ [.word w] } ∧
      Phase1Rule (p.extractLsb' 0 8) qa ∧ Phase2Rule qa ca (w.extractLsb' 0 10) ca' ∧
      Phase1Rule (p.extractLsb' 8 8) qb ∧ Phase2Rule qb cb (w.extractLsb' 10 10) cb' ∧
      Phase1Rule (p.extractLsb' 16 8) qc ∧ Phase2Rule qc cc (w.extractLsb' 20 10) cc' ∧
      w.getLsbD 31 = false ∧ w.getLsbD 30 = false

/-- An ACT with a failing lane faults, listing every failing (reason, lane) pair in the order A, B, C, with no counter written and no word
emitted (60_exceptions.md R143; 92_eei_decisions.md D24). -/
def Obligations.ActFaultListsEveryLane : Prop :=
  ∀ (p : Word32) (s : State), ¬ s.cnt.Ready →
    exec (.act p) s = .fault (.laneFaults ([Lane.a, Lane.b, Lane.c].filterMap (preconditionFault s.cnt)) s.cnt) ∧
    [Lane.a, Lane.b, Lane.c].filterMap (preconditionFault s.cnt) ≠ []

/-- An ACT is three LACTs on its colour components, and a CTL three LCTLs with its sync bits, in ANY order of the lanes: the same counters afterwards, and a
word whose fields are the symbols those operations return (41_composer.md R126, with R124 and R125). That the three LACTs fault in every order when the ACT faults is not
in R126: it follows from R124 and 60_exceptions.md R143. The lane operations are run one by one in the model's own way (log 4), and symbols and words are read
off its field `log` (log 2). -/
def Obligations.LaneOrderIsUnobservable : Prop :=
  ∀ (order : List Lane), order.Perm [.a, .b, .c] →
    (∀ (p : Word32) (s t : State), exec (.act p) s = .next t →
      ∃ (w : Word32) (u : State), t.log = s.log ++ [.word w] ∧ runLacts p order s = .next u ∧ u.cnt = t.cnt ∧
        u.log = s.log ++ order.map (fun l => .symbol l (wordField l w))) ∧
    (∀ (p : Word32) (s : State) (f : Fault), exec (.act p) s = .fault f → ∃ f' : Fault, runLacts p order s = .fault f') ∧
    (∀ (hs vs : Bool) (s t : State), exec (.ctl hs vs) s = .next t →
      ∃ (w : Word32) (u : State), t.log = s.log ++ [.word w] ∧ runLctls hs vs order s = .next u ∧ u.cnt = t.cnt ∧
        u.log = s.log ++ order.map (fun l => .symbol l (wordField l w)))

/-! ### CTL -/

/-- CTL is the request with Q[34] = 0, and completes from every state, even with Unset counters: all three counters become 0, and the word is one of four,
chosen by (hsync, vsync); nothing else changes (41_composer.md R125). -/
def Obligations.CtlGivesFixedWord : Prop :=
  (∀ q : Req35, q.getLsbD 34 = false → decode (.composer q) = .ctl (q.getLsbD 32) (q.getLsbD 33)) ∧
  ∀ (hs vs : Bool) (s : State),
    exec (.ctl hs vs) s = .next { s with
      cnt := ⟨.val 0, .val 0, .val 0⟩,
      log := s.log ++ [.word (match hs, vs with
        | false, false => 0x354D5354
        | true, false => 0x354D50AB
        | false, true => 0x354D5154
        | true, true => 0x354D52AB)] }

/-- After a CTL the counters are those after a system reset; the difference is that the CTL hands over a word (70_reset_and_hazards.md section 1, R163,
which the spec derives from R125). -/
def Obligations.CtlIsImplicitReset : Prop :=
  ∀ (s : State) (q : Req35) (rest : List Input), q.getLsbD 34 = false →
    ∃ (t u : State) (w : Word32), step { s with input := .req q :: rest } = .next t ∧
      step { s with input := .reset :: rest } = .next u ∧ t.cnt = u.cnt ∧ t.cnt = State.reset.cnt ∧
      wordsOf t.log = wordsOf s.log ++ [w] ∧ wordsOf u.log = wordsOf s.log

/-! ### Frames, independence, non-interference -/

/-- The frame of LACT and LCTL: every other lane's counter, the host's inputs and the free-value counter are unchanged, and exactly one symbol of this
lane is handed over (10_state.md R23). -/
def Obligations.LaneOperationFrame : Prop :=
  ∀ (l : Lane) (i : Instr) (s t : State),
    ((∃ d : Byte, i = .lact l d) ∨ (∃ c0 c1 : Bool, i = .lctl l c0 c1)) → exec i s = .next t →
    (∀ m : Lane, m ≠ l → t.cnt.get m = s.cnt.get m) ∧ t.input = s.input ∧ t.choice = s.choice ∧
    ∃ out : Symbol, t.log = s.log ++ [.symbol l out]

/-- The frame of ACT and CTL: the host's inputs and the free-value counter are unchanged, exactly one word is handed over, and every counter holds a
value in [-4, 4] afterwards (41_composer.md section 4, R127). -/
def Obligations.ComposerOperationFrame : Prop :=
  ∀ (i : Instr) (s t : State), ((∃ p : Word32, i = .act p) ∨ (∃ hs vs : Bool, i = .ctl hs vs)) → exec i s = .next t →
    t.input = s.input ∧ t.choice = s.choice ∧ t.cnt.Ready ∧ ∃ w : Word32, t.log = s.log ++ [.word w]

/-- The lanes are independent: what a LACT, or one lane of an ACT, does depends only on that lane's own counter and input, and not on
the other lanes'; and a LACT or an LCTL writes no other lane's counter (20_memory.md R51). -/
def Obligations.LanesAreIndependent : Prop :=
  (∀ (l : Lane) (d : Byte) (s s' t : State), s.cnt.get l = s'.cnt.get l → exec (.lact l d) s = .next t →
    ∃ (t' : State) (out : Symbol), exec (.lact l d) s' = .next t' ∧ t.cnt.get l = t'.cnt.get l ∧
      t.log = s.log ++ [.symbol l out] ∧ t'.log = s'.log ++ [.symbol l out] ∧
      ∀ m : Lane, m ≠ l → t.cnt.get m = s.cnt.get m) ∧
  (∀ (l : Lane) (c0 c1 : Bool) (s : State), ∃ t : State, exec (.lctl l c0 c1) s = .next t ∧
    ∀ m : Lane, m ≠ l → t.cnt.get m = s.cnt.get m) ∧
  (∀ (l : Lane) (p p' : Word32) (s s' t t' : State), s.cnt.get l = s'.cnt.get l → component l p = component l p' →
    exec (.act p) s = .next t → exec (.act p') s' = .next t' →
    ∃ w w' : Word32, t.cnt.get l = t'.cnt.get l ∧ t.log = s.log ++ [.word w] ∧ t'.log = s'.log ++ [.word w'] ∧
      wordField l w = wordField l w')

/-- What an operation does is a function of the counters alone: not of the host's inputs, of what was delivered before, or of the free values used
(10_state.md R20, R31). -/
def Obligations.OperationsReadCountersOnly : Prop :=
  ∀ (i : Instr) (s s' : State), s.cnt = s'.cnt →
    (∀ t : State, exec i s = .next t →
      ∃ (t' : State) (e : Event), exec i s' = .next t' ∧ t.cnt = t'.cnt ∧ t.log = s.log ++ [e] ∧ t'.log = s'.log ++ [e]) ∧
    (∀ f : Fault, exec i s = .fault f → exec i s' = .fault f)

/-- A step changes a counter only by a reset or a control code, which leave it 0, or by an active-pixel encode on its lane (10_state.md R24, R35). -/
def Obligations.CounterChangesHaveACause : Prop :=
  ∀ (s t : State) (l : Lane), step s = .next t → t.cnt.get l ≠ s.cnt.get l →
    ∃ (i : Input) (rest : List Input), s.input = i :: rest ∧
      ((t.cnt.get l = .val 0 ∧
          (i = .reset ∨ (∃ q : Req35, i = .resetReq q) ∨
           (∃ (q : Req35) (hs vs : Bool), i = .req q ∧ decode (.composer q) = .ctl hs vs) ∨
           (∃ (k : LReq11) (c0 c1 : Bool), i = .lane l k ∧ decode (.lane l k) = .lctl l c0 c1))) ∨
       (∃ (q : Req35) (p : Word32), i = .req q ∧ decode (.composer q) = .act p) ∨
       (∃ (k : LReq11) (d : Byte), i = .lane l k ∧ decode (.lane l k) = .lact l d))

/-- The lane rules reach the block: when the counters are ready, ACT's word and counters are those of LACT at each lane (92_eei_decisions.md D22 says that a
lane-level claim says nothing of the block until it is lifted so). -/
def Obligations.LaneClaimsLiftToAct : Prop :=
  ∀ (p : Word32) (l : Lane) (s t : State), exec (.act p) s = .next t →
    ∃ (w : Word32) (u : State), exec (.lact l (component l p)) s = .next u ∧ t.log = s.log ++ [.word w] ∧
      u.log = s.log ++ [.symbol l (wordField l w)] ∧ u.cnt.get l = t.cnt.get l

/-! ### Invariants and runs -/

/-- Every counter stays Unset or in [-4, 4] under every step (40_lane_encoder.md section 5, R93; 10_state.md R21). -/
def Obligations.StepKeepsCountersLegal : Prop :=
  ∀ s t : State, s.cnt.Legal → step s = .next t → t.cnt.Legal

/-- The counters are legal after reset and at power-up, and after reset they are ready. -/
def Obligations.InitialCountersLegal : Prop :=
  State.reset.cnt.Legal ∧ State.powerUp.cnt.Legal ∧ State.reset.cnt.Ready

/-- From ready counters and with an input to take, a step neither faults nor is refused, and the counters are ready after it: no run from reset
faults (40_lane_encoder.md section 5, R93; 60_exceptions.md R141; 41_composer.md R127). -/
def Obligations.ReadyCountersNeverFault : Prop :=
  ∀ s : State, s.cnt.Ready → s.input ≠ [] → ∃ t : State, step s = .next t ∧ t.cnt.Ready

/-- Every counter keeps its meaning under every step: it is half of (ones − zeros) over the data symbols its lane delivered since its last reset or
control code (10_state.md section 2, R22, which the spec derives). -/
def Obligations.StepKeepsCounterMeaning : Prop :=
  ∀ s t : State, s.CountersMeanDisparity → step s = .next t → t.CountersMeanDisparity

/-- The counters have that meaning after reset and at power-up. -/
def Obligations.InitialCounterMeaning : Prop :=
  State.reset.CountersMeanDisparity ∧ State.powerUp.CountersMeanDisparity

/-- Bits 31 and 30 of every word delivered stay 0 under every step (41_composer.md section 4, R128, which the spec derives from R123). -/
def Obligations.StepKeepsWordTopBitsZero : Prop :=
  ∀ s t : State, s.WordsTopZero → step s = .next t → t.WordsTopZero

/-- That holds after reset and at power-up, where nothing has been delivered. -/
def Obligations.InitialWordTopBitsZero : Prop :=
  State.reset.WordsTopZero ∧ State.powerUp.WordsTopZero

/-- From power-up, on any stream of block inputs in which a reset or a CTL comes before the first ACT (`boots`), no run of any length faults, whatever the
free values are (70_reset_and_hazards.md section 2, R165, which the spec derives; boot duty D25). It is about the runs from one start state; the step lemma over every
state that meets the invariant is ReadyCountersNeverFault. -/
def Obligations.BootedStreamsNeverFault : Prop :=
  ∀ (ins : List Input) (n : Nat), boots ins = true →
    ∀ f : Fault, Host.Core.run Sys2Proof.core n { State.powerUp with input := ins } ≠ .fault f

/-! ### Reset and power-up values -/

/-- The reset value of every piece of state: the three counters are 0 and the control-code table is unchanged (10_state.md R33). That no word is delivered by
reset and that the pins show IDLE_WORD is that rule's last row, the spec's own decision D9; the empty record of words is the model's choice (log 16), and what the pins show,
whatever IDLE_WORD and LATENCY are, is the model's view `pinWord` (log 8: deduced, and unsafe for claims that read it). -/
def Obligations.ResetValues : Prop :=
  State.reset.cnt.a = .val 0 ∧ State.reset.cnt.b = .val 0 ∧ State.reset.cnt.c = .val 0 ∧
  (ctrlRom 3 = 0x2AB ∧ ctrlRom 2 = 0x154 ∧ ctrlRom 1 = 0x0AB ∧ ctrlRom 0 = 0x354) ∧
  wordsOf State.reset.log = [] ∧
  ∀ (latency : Nat) (idle : Word32) (t : Nat), pinWord latency idle State.reset.log t = idle

/-- Before the first reset every counter is Unset: an ACT or a LACT then faults with UnresetCounter, and an LCTL or a CTL is defined and writes 0
(10_state.md R34, 70_reset_and_hazards.md R164; the spec's own decision D6: log 5). -/
def Obligations.PowerUpBehaviour : Prop :=
  (∀ l : Lane, State.powerUp.cnt.get l = .unset) ∧
  (∀ p : Word32, exec (.act p) State.powerUp = .fault
    (.laneFaults [⟨.unresetCounter, .a⟩, ⟨.unresetCounter, .b⟩, ⟨.unresetCounter, .c⟩] ⟨.unset, .unset, .unset⟩)) ∧
  (∀ (l : Lane) (d : Byte), exec (.lact l d) State.powerUp =
    .fault (.laneFaults [⟨.unresetCounter, l⟩] ⟨.unset, .unset, .unset⟩)) ∧
  (∀ (l : Lane) (c0 c1 : Bool), ∃ t : State, exec (.lctl l c0 c1) State.powerUp = .next t ∧ t.cnt.get l = .val 0) ∧
  (∀ hs vs : Bool, ∃ t : State, exec (.ctl hs vs) State.powerUp = .next t ∧ t.cnt = State.reset.cnt)

/-! ### Helpers of the transform, and the parameters -/

/-- The half-disparity is exact, equals popcount − 4, lies in [-4, 4], and meets the bounds only at 0x00 and 0xFF (40_lane_encoder.md R81). -/
def Obligations.HalfDisparityIsExact : Prop :=
  ∀ v : Byte, 2 * halfDisparity v = (ones v : Int) - (zeros v : Int) ∧ halfDisparity v = (popcount v : Int) - 4 ∧
    -4 ≤ halfDisparity v ∧ halfDisparity v ≤ 4 ∧ (halfDisparity v = -4 ↔ v = 0x00) ∧ (halfDisparity v = 4 ↔ v = 0xFF)

/-- The prefix-XOR, bit by bit (40_lane_encoder.md R82). -/
def Obligations.PrefixXorBits : Prop :=
  ∀ d : Byte, (prefixXor d).getLsbD 0 = d.getLsbD 0 ∧
    ∀ i : Nat, i < 7 → (prefixXor d).getLsbD (i + 1) = ((prefixXor d).getLsbD i).xor (d.getLsbD (i + 1))

/-- Phase 1: the tentative intermediate (40_lane_encoder.md R84), the inversion decision in terms of the balance and of popcount (R85), the flip of bits 8, 7, 5, 3
and 1 and of no other (R86), and the chain it gives. The chain is R86's sentence "When inv is true, q_m[7:0] is the prefix-XNOR of D", which the spec itself marks
as derived from R82. -/
def Obligations.PhaseOneResult : Prop :=
  ∀ d : Byte,
    (inverts d = true ↔ 0 < halfDisparity d ∨ (halfDisparity d = 0 ∧ d.getLsbD 0 = false)) ∧
    (inverts d = true ↔ InvRule d) ∧ Phase1Rule d (intermediate d) ∧
    (∀ i : Nat, i < 8 → (tentative d).getLsbD i = (prefixXor d).getLsbD i) ∧ (tentative d).getLsbD 8 = true ∧
    (∀ i : Nat, i < 9 → (intermediate d).getLsbD i =
      ((tentative d).getLsbD i).xor (inverts d && (i == 8 || i == 7 || i == 5 || i == 3 || i == 1)))

/-- Packing: bit k of a lane's symbol is bit offset + k of the word, with the offsets 0, 10 and 20, and bits 31 and 30 are 0 (20_memory.md R42,
41_composer.md R123). -/
def Obligations.PackBits : Prop :=
  ∀ a b c : Symbol,
    (∀ k : Nat, k < 10 → (pack a b c).getLsbD k = a.getLsbD k ∧ (pack a b c).getLsbD (10 + k) = b.getLsbD k ∧
      (pack a b c).getLsbD (20 + k) = c.getLsbD k) ∧
    (pack a b c).getLsbD 31 = false ∧ (pack a b c).getLsbD 30 = false

/-- At the pins: the word of a tick shows LATENCY ticks later, in request order, and IDLE_WORD shows before the first and for a tick without a word,
whatever the two parameters are (70_reset_and_hazards.md section 4, R171; 92_eei_decisions.md D9, D10: log 8). -/
def Obligations.PinsShowWordsAfterLatency : Prop :=
  ∀ (latency : Nat) (idle : Word32) (log : List Event) (t : Nat),
    (t < latency → pinWord latency idle log t = idle) ∧
    (∀ w : Word32, (tickWords log)[t]? = some (some w) → pinWord latency idle log (t + latency) = w) ∧
    ((tickWords log)[t]? = some none → pinWord latency idle log (t + latency) = idle)

/-- Whatever order SERIAL_ORDER is, no bit of a symbol is lost on the wire: the bits sent determine the symbol (20_memory.md R44; the order is a parameter outside
the block, 92_eei_decisions.md D12: log 11). -/
def Obligations.SerialOrderLosesNoBit : Prop :=
  ∀ (order : List (Fin 10)), order.Perm (List.finRange 10) →
    ∀ x y : Symbol, wireBits order x = wireBits order y → x = y

/-- A counter of CNT_WIDTH bits holds every legal value, so no output depends on the width (10_state.md R21; 92_eei_decisions.md D5: log 9). -/
def Obligations.CounterWidthHoldsLegalValues : Prop :=
  (∀ (width : Nat) (v : Int), 4 ≤ width → -4 ≤ v → v ≤ 4 → (storedCounter width v).toInt = v) ∧ 4 ≤ Config.counterWidth

end
end

