-- ==== Sys2Proof/Laws/Decode.lean ====
section
/-! SUPPORT. The fields of a request put together are the fields it was put together from (30_encoding.md R62, R63). -/

namespace Sys2Proof

@[simp] theorem reqSelect_packReq35 (s v h : Bool) (p : Word32) : reqSelect (packReq35 s v h p) = s := by
  simp only [reqSelect, packReq35, BitVec.getLsbD_append]
  cases s <;> cases v <;> cases h <;> rfl

@[simp] theorem reqVsync_packReq35 (s v h : Bool) (p : Word32) : reqVsync (packReq35 s v h p) = v := by
  simp only [reqVsync, packReq35, BitVec.getLsbD_append]
  cases s <;> cases v <;> cases h <;> rfl

@[simp] theorem reqHsync_packReq35 (s v h : Bool) (p : Word32) : reqHsync (packReq35 s v h p) = h := by
  simp only [reqHsync, packReq35, BitVec.getLsbD_append]
  cases s <;> cases v <;> cases h <;> rfl

@[simp] theorem reqPixel_packReq35 (s v h : Bool) (p : Word32) : reqPixel (packReq35 s v h p) = p := by
  apply BitVec.eq_of_getLsbD_eq
  intro i hi
  simp only [reqPixel, packReq35, BitVec.getLsbD_extractLsb', BitVec.getLsbD_append, Nat.zero_add, hi,
    decide_true, Bool.true_and, if_true]

@[simp] theorem laneSelect_packLReq11 (s c1 c0 : Bool) (d : Byte) : laneSelect (packLReq11 s c1 c0 d) = s := by
  simp only [laneSelect, packLReq11, BitVec.getLsbD_append]
  cases s <;> cases c1 <;> cases c0 <;> rfl

@[simp] theorem laneC1_packLReq11 (s c1 c0 : Bool) (d : Byte) : laneC1 (packLReq11 s c1 c0 d) = c1 := by
  simp only [laneC1, packLReq11, BitVec.getLsbD_append]
  cases s <;> cases c1 <;> cases c0 <;> rfl

@[simp] theorem laneC0_packLReq11 (s c1 c0 : Bool) (d : Byte) : laneC0 (packLReq11 s c1 c0 d) = c0 := by
  simp only [laneC0, packLReq11, BitVec.getLsbD_append]
  cases s <;> cases c1 <;> cases c0 <;> rfl

@[simp] theorem laneData_packLReq11 (s c1 c0 : Bool) (d : Byte) : laneData (packLReq11 s c1 c0 d) = d := by
  apply BitVec.eq_of_getLsbD_eq
  intro i hi
  simp only [laneData, packLReq11, BitVec.getLsbD_extractLsb', BitVec.getLsbD_append, Nat.zero_add, hi,
    decide_true, Bool.true_and, if_true]

end Sys2Proof
end

