-- ==== Sys2Proof/Laws/State.lean ====
section
/-! SUPPORT. One lemma per field and update of State, and per lane of Counters, so that no proof unfolds a record update. -/

namespace Sys2Proof.Machine

theorem Counters.get_a (k : Counters) : k.get .a = k.a := rfl
theorem Counters.get_b (k : Counters) : k.get .b = k.b := rfl
theorem Counters.get_c (k : Counters) : k.get .c = k.c := rfl

@[simp] theorem Counters.get_set_same (k : Counters) (l : Lane) (x : Cell) : (k.set l x).get l = x := by
  cases l <;> rfl

theorem Counters.get_set_other (k : Counters) {l m : Lane} (x : Cell) (h : m ≠ l) : (k.set l x).get m = k.get m := by
  cases l <;> cases m <;> first | rfl | exact absurd rfl h

@[simp] theorem Counters.get_zero (l : Lane) : Counters.zero.get l = .val 0 := by cases l <;> rfl
@[simp] theorem Counters.get_unset (l : Lane) : Counters.unset.get l = .unset := by cases l <;> rfl

/-- Two counter triples that agree on every lane are equal. -/
theorem Counters.ext_get {k m : Counters} (h : ∀ l, k.get l = m.get l) : k = m := by
  cases k; cases m
  have ha := h .a; have hb := h .b; have hc := h .c
  simp only [Counters.get] at ha hb hc
  simp [ha, hb, hc]

/-- Writes to different lanes commute (20_memory.md R51). -/
theorem Counters.set_comm (k : Counters) {l m : Lane} (x y : Cell) (h : l ≠ m) :
    (k.set l x).set m y = (k.set m y).set l x := by
  cases l <;> cases m <;> first | rfl | exact absurd rfl h

@[simp] theorem State.setCell_cnt (s : State) (l : Lane) (x : Cell) : (s.setCell l x).cnt = s.cnt.set l x := rfl
@[simp] theorem State.setCell_input (s : State) (l : Lane) (x : Cell) : (s.setCell l x).input = s.input := rfl
@[simp] theorem State.setCell_log (s : State) (l : Lane) (x : Cell) : (s.setCell l x).log = s.log := rfl
@[simp] theorem State.setCell_choice (s : State) (l : Lane) (x : Cell) : (s.setCell l x).choice = s.choice := rfl

@[simp] theorem State.setCounters_cnt (s : State) (k : Counters) : (s.setCounters k).cnt = k := rfl
@[simp] theorem State.setCounters_input (s : State) (k : Counters) : (s.setCounters k).input = s.input := rfl
@[simp] theorem State.setCounters_log (s : State) (k : Counters) : (s.setCounters k).log = s.log := rfl
@[simp] theorem State.setCounters_choice (s : State) (k : Counters) : (s.setCounters k).choice = s.choice := rfl

@[simp] theorem State.deliver_cnt (s : State) (e : Event) : (s.deliver e).cnt = s.cnt := rfl
@[simp] theorem State.deliver_input (s : State) (e : Event) : (s.deliver e).input = s.input := rfl
@[simp] theorem State.deliver_log (s : State) (e : Event) : (s.deliver e).log = s.log ++ [e] := rfl
@[simp] theorem State.deliver_choice (s : State) (e : Event) : (s.deliver e).choice = s.choice := rfl

@[simp] theorem State.nextChoice_cnt (s : State) : s.nextChoice.cnt = s.cnt := rfl
@[simp] theorem State.nextChoice_input (s : State) : s.nextChoice.input = s.input := rfl
@[simp] theorem State.nextChoice_log (s : State) : s.nextChoice.log = s.log := rfl
@[simp] theorem State.nextChoice_choice (s : State) : s.nextChoice.choice = s.choice + 1 := rfl

@[simp] theorem systemReset_cnt (s : State) : (systemReset s).cnt = .zero := rfl
@[simp] theorem systemReset_input (s : State) : (systemReset s).input = s.input := rfl
@[simp] theorem systemReset_log (s : State) : (systemReset s).log = s.log := rfl
@[simp] theorem systemReset_choice (s : State) : (systemReset s).choice = s.choice := rfl

@[simp] theorem resetTick_cnt (s : State) : (resetTick s).cnt = .zero := rfl
@[simp] theorem resetTick_input (s : State) : (resetTick s).input = s.input := rfl
@[simp] theorem resetTick_log (s : State) : (resetTick s).log = s.log ++ [.resetTick] := rfl
@[simp] theorem resetTick_choice (s : State) : (resetTick s).choice = s.choice := rfl

end Sys2Proof.Machine
end

