-- ==== Sys2Proof/Laws/Ops.lean ====
section
/-! SUPPORT. One lemma per shared operation and per meaning that says everything it can do. Proofs cite these and do not unfold. -/

namespace Sys2Proof.Machine

/-- A counter reads as `c` exactly when its cell holds `c` and `c` is in [-4, 4] (40_lane_encoder.md R92). -/
theorem readCounter_ok_iff {k : Counters} {l : Lane} {c : Int} :
    readCounter k l = .ok c ↔ k.get l = .val c ∧ -4 ≤ c ∧ c ≤ 4 := by
  unfold readCounter
  cases k.get l with
  | unset => simp
  | val v =>
    by_cases h : -4 ≤ v ∧ v ≤ 4
    · simp only [h, and_self, if_true, Except.ok.injEq, Cell.val.injEq]
      constructor
      · rintro rfl; exact ⟨rfl, h⟩
      · exact fun g => g.1
    · simp only [h, if_false, Cell.val.injEq, reduceCtorEq, false_iff]
      rintro ⟨rfl, g⟩; exact h g

/-- A counter's read fails exactly in the two ways of 60_exceptions.md R141 and R142. -/
theorem readCounter_error_iff {k : Counters} {l : Lane} {f : LaneFault} :
    readCounter k l = .error f ↔
      (k.get l = .unset ∧ f = ⟨.unresetCounter, l⟩) ∨
      (∃ v, k.get l = .val v ∧ ¬ (-4 ≤ v ∧ v ≤ 4) ∧ f = ⟨.counterOutOfRange, l⟩) := by
  unfold readCounter
  cases k.get l with
  | unset => simp [eq_comm]
  | val v =>
    by_cases h : -4 ≤ v ∧ v ≤ 4
    · simp only [h, and_self, if_true, reduceCtorEq, false_and, Cell.val.injEq, false_or, false_iff]
      rintro ⟨_, rfl, g, _⟩; exact g h
    · simp only [h, if_false, Except.error.injEq, reduceCtorEq, false_and, Cell.val.injEq, false_or]
      constructor
      · rintro rfl; exact ⟨v, rfl, h, rfl⟩
      · rintro ⟨_, _, _, g⟩; exact g.symm

/-- Everything LACT can do: its counter reads, and it goes on; or the read fails, and it faults (40_lane_encoder.md R92). -/
theorem execLact_cases (l : Lane) (d : Byte) (s : State) :
    (∃ c, readCounter s.cnt l = .ok c ∧
      execLact l d s = .next ((s.setCell l (.val (encodeActive d c).2)).deliver (.symbol l (encodeActive d c).1))) ∨
    (∃ f, readCounter s.cnt l = .error f ∧ execLact l d s = .fault (.laneFaults [f] s.cnt)) := by
  cases h : readCounter s.cnt l with
  | ok c => exact .inl ⟨c, rfl, by simp [execLact, h]⟩
  | error f => exact .inr ⟨f, rfl, by simp [execLact, h, raise]⟩

/-- Everything ACT can do: all three counters read, and it goes on; or some read fails, and it faults (41_composer.md R124). -/
theorem execAct_cases (p : Word32) (s : State) :
    (∃ ca cb cc, readCounter s.cnt .a = .ok ca ∧ readCounter s.cnt .b = .ok cb ∧ readCounter s.cnt .c = .ok cc ∧
      execAct p s = .next ((s.setCounters
        ⟨.val (encodeActive (component .a p) ca).2, .val (encodeActive (component .b p) cb).2,
          .val (encodeActive (component .c p) cc).2⟩).deliver
        (.word (pack (encodeActive (component .a p) ca).1 (encodeActive (component .b p) cb).1
          (encodeActive (component .c p) cc).1)))) ∨
    (faultsOf [readCounter s.cnt .a, readCounter s.cnt .b, readCounter s.cnt .c] ≠ [] ∧
      execAct p s = .fault (.laneFaults
        (faultsOf [readCounter s.cnt .a, readCounter s.cnt .b, readCounter s.cnt .c]) s.cnt)) := by
  cases ha : readCounter s.cnt .a <;> cases hb : readCounter s.cnt .b <;> cases hc : readCounter s.cnt .c <;>
    simp [execAct, ha, hb, hc, raise, faultsOf]

/-- No meaning refuses (30_encoding.md R69). -/
theorem exec_never_refused (i : Instr) (s : State) (r : Refusal) : exec i s ≠ .refused r := by
  cases i with
  | act p =>
    rcases execAct_cases p s with ⟨_, _, _, _, _, _, h⟩ | ⟨_, h⟩ <;> simp [exec, h]
  | ctl hs vs => simp [exec, execCtl]
  | lact l d => rcases execLact_cases l d s with ⟨_, _, h⟩ | ⟨_, _, h⟩ <;> simp [exec, h]
  | lctl l c0 c1 => simp [exec, execLctl]

/-- Everything a tick with reset and a request can do (70_reset_and_hazards.md R162). -/
theorem resetOver_cases (emits : Bool) (o : Host.Outcome State Fault Refusal) (s : State) :
    (emits = false ∧ resetOver emits o s = .next (resetTick s).nextChoice) ∨
    (emits = true ∧ ∃ t, o = .next t ∧
      resetOver emits o s = .next ((systemReset t).deliver .resetAfterWord).nextChoice) ∨
    (emits = true ∧ ∃ f, o = .fault f ∧ resetOver emits o s = .fault f) ∨
    (emits = true ∧ ∃ r, o = .refused r ∧ resetOver emits o s = .refused r) := by
  cases emits with
  | false => exact .inl ⟨rfl, rfl⟩
  | true => cases o with
    | next t => exact .inr (.inl ⟨rfl, t, rfl, rfl⟩)
    | fault f => exact .inr (.inr (.inl ⟨rfl, f, rfl, rfl⟩))
    | refused r => exact .inr (.inr (.inr ⟨rfl, r, rfl, rfl⟩))

/-- The composite word's fields are the symbols packed into it (41_composer.md R123). -/
theorem wordField_pack (a b c : Symbol) :
    wordField .a (pack a b c) = a ∧ wordField .b (pack a b c) = b ∧ wordField .c (pack a b c) = c := by
  refine ⟨?_, ?_, ?_⟩ <;>
  · apply BitVec.eq_of_getLsbD_eq
    intro i hi
    simp only [wordField, pack, BitVec.getLsbD_extractLsb', BitVec.getLsbD_append, hi, decide_true, Bool.true_and]
    split <;> rename_i h <;> first | omega | skip
    all_goals try (split <;> rename_i h' <;> first | omega | skip)
    all_goals try (split <;> rename_i h'' <;> first | omega | skip)
    all_goals congr 1
    all_goals omega

/-- The two bits above the fields are 0 (41_composer.md R123, R128). -/
theorem pack_top_zero (a b c : Symbol) :
    (pack a b c).getLsbD 31 = false ∧ (pack a b c).getLsbD 30 = false := by
  constructor <;> simp only [pack, BitVec.getLsbD_append] <;> rfl

end Sys2Proof.Machine
end

