-- ==== Sys2Proof/Laws/PerInstr.lean ====
section
/-! SUPPORT. Statements about every operation as syntax, one lemma per constructor. -/

namespace Sys2Proof.Laws.CanonicalRequest

/-- The encoder writes every ignored field as 0 (30_encoding.md R70, R72). -/
def Statement (i : Instr) : Prop :=
  match encode i with
  | .composer q =>
    if reqSelect q then reqVsync q = false ∧ reqHsync q = false else reqPixel q = 0
  | .lane _ k =>
    if laneSelect k then laneC1 k = false ∧ laneC0 k = false else laneData k = 0

theorem act (p : Word32) : Statement (.act p) := by simp [Statement, encode]

theorem ctl (hs vs : Bool) : Statement (.ctl hs vs) := by simp [Statement, encode]

theorem lact (l : Lane) (d : Byte) : Statement (.lact l d) := by simp [Statement, encode]

theorem lctl (l : Lane) (c0 c1 : Bool) : Statement (.lctl l c0 c1) := by simp [Statement, encode]

end Sys2Proof.Laws.CanonicalRequest
end

