-- ==== Sys2Proof/Laws/Step.lean ====
section
/-! SUPPORT. What one step can do, said once (41_composer.md R130), and small lemmas of the words Safety.lean speaks in. -/

namespace Sys2Proof.Machine

/-- With no input there is no tick. -/
theorem step_nil {s : State} (h : s.input = []) : step s = .refused .noRequest := by
  simp [step, takeInput, h]

/-- With an input, the step is the tick of that input at the state without it. -/
theorem step_cons {s : State} {i : Input} {rest : List Input} (h : s.input = i :: rest) :
    step s = tick i { s with input := rest } := by
  simp [step, takeInput, h]

/-- Everything a step that answers a next state can have done: which input it took, and what it performed. -/
theorem step_cases {s t : State} (h : step s = .next t) :
    ∃ i rest, s.input = i :: rest ∧
      ((i = .reset ∧ t = resetTick { s with input := rest }) ∨
       (∃ q, i = .req q ∧ exec (decode (.composer q)) { s with input := rest } = .next t) ∨
       (∃ q, i = .resetReq q ∧
          (t = (resetTick { s with input := rest }).nextChoice ∨
           ∃ u, exec (decode (.composer q)) { s with input := rest } = .next u ∧
             t = ((systemReset u).deliver .resetAfterWord).nextChoice)) ∨
       (∃ l k, i = .lane l k ∧ exec (decode (.lane l k)) { s with input := rest } = .next t)) := by
  match hi : s.input with
  | [] => rw [step_nil hi] at h; cases h
  | i :: rest =>
    rw [step_cons hi] at h
    refine ⟨i, rest, rfl, ?_⟩
    cases i with
    | reset => exact .inl ⟨rfl, by simpa [tick] using h.symm⟩
    | req q => exact .inr (.inl ⟨q, rfl, h⟩)
    | lane l k => exact .inr (.inr (.inr ⟨l, k, rfl, h⟩))
    | resetReq q =>
      refine .inr (.inr (.inl ⟨q, rfl, ?_⟩))
      simp only [tick] at h
      rcases resetOver_cases (Config.resetReqEmits s.choice) (exec (decode (.composer q)) { s with input := rest })
        { s with input := rest } with ⟨_, g⟩ | ⟨_, u, hu, g⟩ | ⟨_, f, _, g⟩ | ⟨_, r, _, g⟩
      · rw [g] at h; exact .inl (by simpa using h.symm)
      · rw [g] at h; exact .inr ⟨u, hu, by simpa using h.symm⟩
      · rw [g] at h; cases h
      · rw [g] at h; cases h

/-- A run goes on from the next state of its first step. -/
theorem run_succ_next {s t : State} (n : Nat) (h : step s = .next t) :
    Host.Core.run Sys2Proof.core (n + 1) s = Host.Core.run Sys2Proof.core n t := by
  have g : Sys2Proof.core.step s = .next t := h
  simp only [Host.Core.run, g]

/-- A run stops at the first fault, with that fault. -/
theorem run_succ_fault {s : State} {f : Fault} (n : Nat) (h : step s = .fault f) :
    Host.Core.run Sys2Proof.core (n + 1) s = .fault f := by
  have g : Sys2Proof.core.step s = .fault f := h
  simp only [Host.Core.run, g]

/-- A run stops at the first refusal, with that refusal. -/
theorem run_succ_refused {s : State} {r : Refusal} (n : Nat) (h : step s = .refused r) :
    Host.Core.run Sys2Proof.core (n + 1) s = .refused r := by
  have g : Sys2Proof.core.step s = .refused r := h
  simp only [Host.Core.run, g]

/-- A cell is ready exactly when its counter reads (40_lane_encoder.md R92). -/
theorem ready_iff_reads {k : Counters} {l : Lane} : (k.get l).ready = true ↔ ∃ c, readCounter k l = .ok c := by
  constructor
  · intro h
    cases hc : k.get l with
    | unset => simp [hc, Cell.ready] at h
    | val v =>
      refine ⟨v, readCounter_ok_iff.2 ⟨hc, ?_⟩⟩
      simpa [hc, Cell.ready] using h
  · rintro ⟨c, h⟩
    have g := readCounter_ok_iff.1 h
    simpa [g.1, Cell.ready] using g.2

/-- A value in [-4, 4] is one of nine (10_state.md R21). -/
theorem counter_eq_offset {c : Int} (h1 : -4 ≤ c) (h2 : c ≤ 4) : ∃ k : Fin 9, c = (k.val : Int) - 4 :=
  ⟨⟨(c + 4).toNat, by omega⟩, by simp only; omega⟩

/-- The account of a longer log is the account of the shorter one and its last event (10_state.md R22). -/
@[simp] theorem account_append (l : Lane) (log : List Event) (e : Event) :
    account l (log ++ [e]) = accountEvent l (account l log) e := by
  simp [account]

end Sys2Proof.Machine
end

