-- ==== Sys2Proof/Tests/Slice0.lean ====
section
/-! SUPPORT. The model's own tests. Every expected value is the spec's: 95_test_vectors.md (its section is named), 30_encoding.md or
40_lane_encoder.md. The theorems named witness_… show states and operands that meet a statement's hypotheses. -/

namespace Sys2Proof.Tests
open Sys2Proof.Machine

/-- A machine with these three counters, an input stream and nothing delivered. -/
def machine (a b c : Int) (ins : List Input) : State :=
  { State.reset with cnt := ⟨.val a, .val b, .val c⟩, input := ins }

/-- The power-up machine with an input stream. -/
def fresh (ins : List Input) : State := { State.powerUp with input := ins }

/-- The next state of an outcome, if it has one. -/
def nextOf : Host.Outcome State Fault Refusal → Option State
  | .next t => some t
  | .fault _ => none
  | .refused _ => none

/-- The fault of an outcome, if it has one. -/
def faultOf : Host.Outcome State Fault Refusal → Option Fault
  | .next _ => none
  | .fault f => some f
  | .refused _ => none

/-- The counters and the log after an outcome, if it has a next state. -/
def seen (o : Host.Outcome State Fault Refusal) : Option (Counters × List Event) :=
  (nextOf o).map fun t => (t.cnt, t.log)

/-! ### Well-formedness: each check refuses an ill-formed term -/

theorem test_wellformed_width : widthKnown 24 = false ∧ tableWordWellFormed 24 0 = false := by decide
theorem test_wellformed_fits : fitsFormat 40 0x800000000 = false ∧ tableWordWellFormed 40 0x800000000 = false := by decide
theorem test_wellformed_fits_lane : fitsFormat 16 0x800 = false ∧ tableWordWellFormed 16 0x800 = false := by decide
theorem test_wellformed_accepts : tableWordWellFormed 40 0x7FFFFFFFF = true ∧ tableWordWellFormed 16 0x7FF = true := by decide
theorem test_reject_names : tableRequest 24 0 = .error (.widthUnknown 24) ∧
    tableRequest 16 0x800 = .error (.bitsAboveWidth 16 0x800) := ⟨rfl, rfl⟩

/-! ### Decoding: words written out bit by bit from 30_encoding.md R62, R63 -/

theorem test_decode_act : decodeReq35 0b1_00_00000000_00010010_00110100_01010110#35 = .act 0x00123456 := by decide
theorem test_decode_act_ignored : decodeReq35 0b1_11_11111111_10101011_11001101_11101111#35 = .act 0xFFABCDEF := by decide
theorem test_decode_ctl_hsync : decodeReq35 0b0_01_11011110101011011011111011101111#35 = .ctl true false := by decide
theorem test_decode_ctl_vsync : decodeReq35 0b0_10_00000000000000000000000000000000#35 = .ctl false true := by decide
theorem test_decode_lact : decodeLReq11 .b 0b1_11_00111100#11 = .lact .b 0x3C := by decide
theorem test_decode_lctl_c1 : decodeLReq11 .c 0b0_10_11111111#11 = .lctl .c false true := by decide
theorem test_decode_lctl_c0 : decodeLReq11 .c 0b0_01_00000000#11 = .lctl .c true false := by decide

/-- The canonical encodings of 30_encoding.md R72: `Q = (vs << 33) | (hs << 32)`, `K = (c1 << 9) | (c0 << 8)`. -/
theorem test_encode : encode (.act 0x00123456) = .composer 0x400123456 ∧ encode (.ctl true false) = .composer 0x100000000 ∧
    encode (.lact .a 0x3C) = .lane .a 0x43C ∧ encode (.lctl .a true false) = .lane .a 0x100 := by decide

/-! ### The transform: 95_test_vectors.md sections 2.1, 2.3, 2.4 -/

theorem test_phase1_inverting : intermediate 0xFF = 0x0FF#9 ∧ prefixXor 0xFF = 0x55#8 := by decide
theorem test_phase1_balanced : intermediate 0x55 = 0x133#9 ∧ intermediate 0xAA = 0x0CC#9 := by decide
theorem test_branches : encodeActive 0x3C 2 = (0x241#10, 0) ∧ encodeActive 0x3C (-2) = (0x0BE#10, -1) ∧
    encodeActive 0x01 4 = (0x300#10, 1) ∧ encodeActive 0x00 (-4) = (0x3FF#10, 1) := by decide
/-- Section 2.7. -/
theorem test_oracle : oracleDecode 0x241 = 0x3C ∧ oracleDecode 0x0BE = 0x3C ∧ oracleDecode 0x163 = 0xA5 := by decide

/-! ### One step of each operation: sections 2.4, 2.5, 2.6 -/

theorem test_lact_step : seen (step (machine 0 1 0 [.lane .b 0x408])) =
    some (⟨.val 0, .val 1, .val 0⟩, [.symbol .b 0x307]) := by decide
theorem test_lact_unset : faultOf (step (fresh [.lane .c 0x400])) =
    some (.laneFaults [⟨.unresetCounter, .c⟩] ⟨.unset, .unset, .unset⟩) := by decide
theorem test_lctl_step : seen (step (fresh [.lane .b 0x2FF])) =
    some (⟨.unset, .val 0, .unset⟩, [.symbol .b 0x154]) := by decide
theorem test_act_step : seen (step (machine (-4) 2 3 [.req 0x400AA5501])) =
    some (⟨.val 0, .val 2, .val 3⟩, [.word 0x2334CDFF]) := by decide
theorem test_act_faults : faultOf (step { State.reset with cnt := ⟨.val 5, .unset, .val 0⟩, input := [.req 0x400000000] }) =
    some (.laneFaults [⟨.counterOutOfRange, .a⟩, ⟨.unresetCounter, .b⟩] ⟨.val 5, .unset, .val 0⟩) := by decide
theorem test_ctl_step : seen (step (fresh [.req 0x1DEADBEEF])) =
    some (⟨.val 0, .val 0, .val 0⟩, [.word 0x354D50AB]) := by decide
theorem test_ctl_vsync : seen (step (machine 4 (-4) 1 [.req 0x200000000])) =
    some (⟨.val 0, .val 0, .val 0⟩, [.word 0x354D5154]) := by decide
theorem test_reset_step : seen (step (fresh [.reset])) = some (⟨.val 0, .val 0, .val 0⟩, [.resetTick]) := by decide
/-- The two admitted outcomes of RST with `ACT 0x00000000` at (+1, -2, +3). -/
theorem test_reset_with_act (emits : Bool) : seen (resetOver emits (exec (.act 0) (machine 1 (-2) 3 [])) (machine 1 (-2) 3 [])) =
    some (⟨.val 0, .val 0, .val 0⟩, if emits then [.word 0x100FFD00, .resetAfterWord] else [.resetTick]) := by
  cases emits <;> decide

/-- A table word placed as the next request is what the first step after reset runs: `ACT 0x00FFFFFF`, section 2.5. -/
theorem test_with_fetch_word : decodeTableWord 40 0x400FFFFFF = some (.act 0x00FFFFFF) ∧
    seen (step (State.reset.withFetchWord 40 0x400FFFFFF)) =
      some (⟨.val (-4), .val (-4), .val (-4)⟩, [.word 0x20080200]) := by decide
theorem test_with_fetch_word_lane : decodeTableWord 16 0x300 = some (.lctl .a true true) ∧
    seen (step (State.reset.withFetchWord 16 0x300)) = some (⟨.val 0, .val 0, .val 0⟩, [.symbol .a 0x2AB]) := by decide

/-! ### Witnesses: requests -/

theorem witness_DecodeEncodeRoundTrip : (Instr.act 0xFF123456).WellFormed = true := by decide
theorem witness_RequestFieldsDecode : (0x7FFFFFFFF#35).getLsbD 34 = true ∧ (0x3FFFFFFFF#35).getLsbD 34 = false ∧
    (0x7FF#11).getLsbD 10 = true ∧ (0x3FF#11).getLsbD 10 = false := by decide
theorem witness_IgnoredBitsHaveNoEffect_act : (0x400ABCDEF#35).getLsbD 34 = (0x7FFABCDEF#35).getLsbD 34 ∧
    (0x400ABCDEF#35).getLsbD 34 = true ∧
    ∀ k : Nat, k < 24 → (0x400ABCDEF#35).getLsbD k = (0x7FFABCDEF#35).getLsbD k := by decide
theorem witness_IgnoredBitsHaveNoEffect_ctl : (0x100000000#35).getLsbD 34 = (0x1DEADBEEF#35).getLsbD 34 ∧
    (0x100000000#35).getLsbD 34 = false ∧ (0x100000000#35).getLsbD 33 = (0x1DEADBEEF#35).getLsbD 33 ∧
    (0x100000000#35).getLsbD 32 = (0x1DEADBEEF#35).getLsbD 32 := by decide
theorem witness_IgnoredBitsHaveNoEffect_lact : (0x4A5#11).getLsbD 10 = (0x7A5#11).getLsbD 10 ∧ (0x4A5#11).getLsbD 10 = true ∧
    ∀ k : Nat, k < 8 → (0x4A5#11).getLsbD k = (0x7A5#11).getLsbD k := by decide
theorem witness_IgnoredBitsHaveNoEffect_lctl : (0x200#11).getLsbD 10 = (0x2FF#11).getLsbD 10 ∧ (0x200#11).getLsbD 10 = false ∧
    (0x200#11).getLsbD 9 = (0x2FF#11).getLsbD 9 ∧ (0x200#11).getLsbD 8 = (0x2FF#11).getLsbD 8 := by decide

/-! ### Witnesses: steps -/

theorem witness_StepRunsDecodedRequest : (machine 0 0 0 [.req 0x400000000, .reset]).input = [.req 0x400000000, .reset] ∧
    (machine 0 0 0 [.lane .c 0x400]).input = [.lane .c 0x400] ∧
    (machine 0 0 0 [.resetReq 0x400000000]).input = [.resetReq 0x400000000] := by decide
theorem witness_PlacedTableWordRunsNext : decodeTableWord 40 0x7FFFFFFFF = some (.act 0xFFFFFFFF) ∧
    decodeTableWord 16 0x7FF = some (.lact .a 0xFF) := by decide
theorem witness_OnlyNoInputIsRefused : State.reset.input = [] ∧ (machine 0 0 0 [.reset]).input ≠ [] := by decide
theorem witness_ResetTickZeroesCounters : (fresh [.reset, .req 0]).input = .reset :: [.req 0] := by decide
theorem witness_ResetBesideRequest : (machine 1 (-2) 3 [.resetReq 0x400000000]).input = .resetReq 0x400000000 :: [] ∧
    (fresh [.resetReq 0x400000000]).input = .resetReq 0x400000000 :: [] := by decide
theorem witness_StepRefinesBlockRelation : (machine 1 (-2) 3 [.resetReq 0x400000000]).input = .resetReq 0x400000000 :: [] ∧
    (Input.resetReq 0x400000000).ofBlock = true ∧ (Input.reset).ofBlock = true ∧ (Input.req 0).ofBlock = true := by decide
/-- Section 2.6: dropped, emitted, and faulting. -/
theorem witness_AdmittedResetOutcomesAreReached :
    BlockOutcome.next ⟨.val 0, .val 0, .val 0⟩ none ∈ mealySteps ⟨.val 1, .val (-2), .val 3⟩ (.resetReq 0x400000000) ∧
    BlockOutcome.next ⟨.val 0, .val 0, .val 0⟩ (some 0x100FFD00) ∈
      mealySteps ⟨.val 1, .val (-2), .val 3⟩ (.resetReq 0x400000000) ∧
    BlockOutcome.fault [⟨.unresetCounter, .a⟩, ⟨.unresetCounter, .b⟩, ⟨.unresetCounter, .c⟩] .unset ∈
      mealySteps .unset (.resetReq 0x400000000) := by decide
theorem witness_DeliveredWordsStayInOrder : ∃ t, step (machine 0 0 0 [.req 0x400000000]) = .next t := ⟨_, rfl⟩
theorem witness_OneWordPerRequest : (∀ l, ((machine (-4) 0 4 [.req 0x400000000]).cnt.get l).ready = true) ∧
    (machine (-4) 0 4 [.req 0x400000000]).input = .req 0x400000000 :: [] :=
  ⟨fun l => by cases l <;> decide, rfl⟩

/-! ### Witnesses: LACT and LCTL -/

theorem witness_LactFollowsPhaseRules : (machine (-4) 0 4 []).cnt.get .a = .val (-4) ∧ (machine (-4) 0 4 []).cnt.get .c = .val 4 ∧
    (-4 : Int) ≤ -4 ∧ (-4 : Int) ≤ 4 ∧ (4 : Int) ≤ 4 := by decide
theorem witness_LactFaultsOnBadCounter : State.powerUp.cnt.get .b = .unset ∧ (machine 5 (-5) 0 []).cnt.get .a = .val 5 ∧
    (4 : Int) < 5 ∧ (machine 5 (-5) 0 []).cnt.get .b = .val (-5) ∧ (-5 : Int) < -4 := by decide
theorem witness_LactKeepsCounterBound : ((machine (-4) 0 4 []).cnt.get .a).ready = true ∧
    ((machine (-4) 0 4 []).cnt.get .c).ready = true ∧ (machine (-4) 0 4 []).cnt.get .b = .val 0 ∧
    (-4 : Int) ≤ -4 ∧ (4 : Int) ≤ 4 := by decide
theorem witness_LactSymbolFields : ∃ t, exec (.lact .a 0x3C) (machine 2 0 0 []) = .next t ∧
    (machine 2 0 0 []).cnt.get .a = .val 2 ∧ t.cnt.get .a = .val 0 ∧ t.log = [] ++ [.symbol .a 0x241] := ⟨_, rfl, by decide⟩
/-- Five ones (the counter stays), and not five. -/
theorem witness_RepeatedOperations_lact : (∃ t, exec (.lact .a 0x08) (machine 1 0 0 []) = .next t ∧
      t.log = [] ++ [.symbol .a 0x307] ∧ popcount (0x307#10) = 5) ∧
    (∃ t, exec (.lact .a 0x00) (machine 0 0 0 []) = .next t ∧ t.log = [] ++ [.symbol .a 0x100]) :=
  ⟨⟨_, rfl, by decide⟩, ⟨_, rfl, by decide⟩⟩
theorem witness_RepeatedOperations_control : (∃ t, exec (.lctl .c true true) State.powerUp = .next t ∧
      t.log = [] ++ [.symbol .c 0x2AB]) ∧
    (∃ t, exec (.ctl true true) State.powerUp = .next t ∧ t.log = [] ++ [.word 0x354D52AB]) :=
  ⟨⟨_, rfl, by decide⟩, ⟨_, rfl, by decide⟩⟩
theorem witness_LactInputRecoverable : ∃ t, exec (.lact .b 0xA5) (machine 0 3 0 []) = .next t ∧
    t.log = [] ++ [.symbol .b 0x163] := ⟨_, rfl, by decide⟩
theorem witness_LactInputRecoverable_injective : ∃ t t', exec (.lact .b 0xA5) (machine 0 3 0 []) = .next t ∧
    exec (.lact .b 0xA5) (machine 0 3 0 []) = .next t' ∧ t.log = t'.log := ⟨_, _, rfl, rfl, by decide⟩
theorem witness_DataAndControlSymbolsDiffer : (∃ t, exec (.lact .b 0xA5) (machine 0 3 0 []) = .next t ∧
      t.log = [] ++ [.symbol .b 0x163]) ∧
    (∃ t, exec (.lctl .b false true) (machine 0 3 0 []) = .next t ∧ t.log = [] ++ [.symbol .b 0x154]) :=
  ⟨⟨_, rfl, by decide⟩, ⟨_, rfl, by decide⟩⟩
/-- D = 0x00 at −4 and −1; at 0; at +1 and +4 (section 2.2). -/
theorem witness_LactSymbolDependsOnSign : (∃ t t', exec (.lact .a 0x00) (machine (-4) 0 0 []) = .next t ∧
      exec (.lact .a 0x00) (machine (-1) 0 0 []) = .next t' ∧ t.log = [] ++ [.symbol .a 0x3FF] ∧
      t'.log = [] ++ [.symbol .a 0x3FF]) ∧
    (∃ t t', exec (.lact .a 0x00) (machine 1 0 0 []) = .next t ∧ exec (.lact .a 0x00) (machine 4 0 0 []) = .next t' ∧
      t.log = [] ++ [.symbol .a 0x100] ∧ t'.log = [] ++ [.symbol .a 0x100]) ∧
    (∃ t, exec (.lact .a 0x00) (machine 0 0 0 []) = .next t ∧ t.log = [] ++ [.symbol .a 0x100]) :=
  ⟨⟨_, _, rfl, rfl, by decide, by decide⟩, ⟨_, _, rfl, rfl, by decide, by decide⟩, ⟨_, rfl, by decide⟩⟩
/-- D = 0x10 has data disparity 0 (section 2.1): its Phase-1 result meets the rule and has four ones. -/
theorem witness_LactSymbolDependsOnSign_zero : (∃ q, Phase1Rule 0x10 q ∧ popcount (q.extractLsb' 0 8) = 4) ∧
    ∃ t t', exec (.lact .a 0x10) (machine (-1) 0 0 []) = .next t ∧ exec (.lact .a 0x10) (machine 4 0 0 []) = .next t' ∧
      t.log = [] ++ [.symbol .a 0x1F0] ∧ t'.log = [] ++ [.symbol .a 0x1F0] := by
  have h : ¬ InvRule 0x10 := by unfold InvRule; decide
  refine ⟨⟨0x1F0, ⟨by decide, fun g => absurd g h, fun _ => ⟨by decide, by decide⟩⟩, by decide⟩, _, _, rfl, rfl, by decide, by decide⟩
theorem witness_LctlGivesControlCode : (0x0FF#11).getLsbD 10 = false := by decide

/-! ### Witnesses: ACT and CTL -/

theorem witness_ActFollowsLaneRules : (machine (-4) 0 4 []).cnt = ⟨.val (-4), .val 0, .val 4⟩ ∧ (-4 : Int) ≤ -4 ∧ (-4 : Int) ≤ 4 ∧
    (-4 : Int) ≤ 0 ∧ (0 : Int) ≤ 4 ∧ (4 : Int) ≤ 4 := by decide
theorem witness_ActFaultListsEveryLane : ¬ (machine 0 5 0 []).cnt.Ready ∧ ¬ State.powerUp.cnt.Ready :=
  ⟨fun h => absurd (h .b) (by decide), fun h => absurd (h .a) (by decide)⟩
theorem witness_LaneOrderIsUnobservable : [Lane.b, Lane.c, Lane.a].Perm [.a, .b, .c] ∧
    (∃ t, exec (.act 0x00AA5501) (machine (-4) 2 3 []) = .next t) ∧ (∃ f, exec (.act 0) (machine 0 5 0 []) = .fault f) ∧
    (∃ t, exec (.ctl true false) State.powerUp = .next t) := ⟨by decide, ⟨_, rfl⟩, ⟨_, rfl⟩, ⟨_, rfl⟩⟩
theorem witness_CtlGivesFixedWord : (0x3FFFFFFFF#35).getLsbD 34 = false := by decide
theorem witness_CtlIsImplicitReset : (0x3DEADBEEF#35).getLsbD 34 = false := by decide

/-! ### Witnesses: frames, independence, invariants, runs, parameters -/

theorem witness_LaneOperationFrame : (∃ t, exec (.lact .b 0x00) (machine (-4) 0 4 []) = .next t) ∧
    (∃ t, exec (.lctl .c false false) State.powerUp = .next t) ∧ Lane.a ≠ .b := ⟨⟨_, rfl⟩, ⟨_, rfl⟩, by decide⟩
theorem witness_ComposerOperationFrame : (∃ t, exec (.act 0) (machine (-4) 0 4 []) = .next t) ∧
    (∃ t, exec (.ctl false false) State.powerUp = .next t) := ⟨⟨_, rfl⟩, ⟨_, rfl⟩⟩
theorem witness_LanesAreIndependent : (machine (-4) 0 4 []).cnt.get .b = (machine 1 0 (-1) []).cnt.get .b ∧
    component .b 0x00AA5501 = component .b 0xFF005500 ∧ (∃ t, exec (.lact .b 0x55) (machine (-4) 0 4 []) = .next t) ∧
    (∃ t, exec (.act 0x00AA5501) (machine (-4) 0 4 []) = .next t) ∧
    (∃ t, exec (.act 0xFF005500) (machine 1 0 (-1) []) = .next t) := ⟨by decide, by decide, ⟨_, rfl⟩, ⟨_, rfl⟩, ⟨_, rfl⟩⟩
theorem witness_OperationsReadCountersOnly : (machine 1 2 3 []).cnt = (machine 1 2 3 [.reset]).cnt ∧
    (∃ t, exec (.act 0) (machine 1 2 3 []) = .next t) ∧ (∃ f, exec (.act 0) State.powerUp = .fault f) :=
  ⟨by decide, ⟨_, rfl⟩, ⟨_, rfl⟩⟩
theorem witness_CounterChangesHaveACause : ∃ t, step (machine 0 0 0 [.req 0x400000000]) = .next t ∧
    t.cnt.get .a ≠ (machine 0 0 0 [.req 0x400000000]).cnt.get .a := ⟨_, rfl, by decide⟩
theorem witness_LaneClaimsLiftToAct : ∃ t, exec (.act 0x00AA5501) (machine (-4) 2 3 []) = .next t := ⟨_, rfl⟩
theorem witness_StepKeepsCountersLegal : (machine (-4) 0 4 [.req 0x400000000]).cnt.Legal ∧
    (∃ t, step (machine (-4) 0 4 [.req 0x400000000]) = .next t) ∧ State.powerUp.cnt.Legal :=
  ⟨fun l => by cases l <;> decide, ⟨_, rfl⟩, fun l => by cases l <;> decide⟩
theorem witness_ReadyCountersNeverFault : (machine (-4) 0 4 [.reset]).cnt.Ready ∧ (machine (-4) 0 4 [.reset]).input ≠ [] :=
  ⟨fun l => by cases l <;> decide, by decide⟩
theorem witness_StepKeepsCounterMeaning : (machine 0 0 0 [.req 0x400000000]).CountersMeanDisparity ∧
    ∃ t, step (machine 0 0 0 [.req 0x400000000]) = .next t := by
  refine ⟨fun l v h => ?_, _, rfl⟩
  cases l <;> cases h <;> rfl
theorem witness_StepKeepsWordTopBitsZero : ({ machine 0 0 0 [.reset] with log := [.word 0x354D5354] } : State).WordsTopZero ∧
    ∃ t, step { machine 0 0 0 [.reset] with log := [.word 0x354D5354] } = .next t := by
  refine ⟨fun w h => ?_, _, rfl⟩
  have e : w = 0x354D5354 := by simpa using h
  subst e; decide
/-- Programs P1 and P2 of section 3 meet the boot duty; P5 does not. -/
theorem witness_BootedStreamsNeverFault : boots [.reset, .req 0x400000000, .req 0x400000000] = true ∧
    boots [.req 0x000000000, .req 0x400FF8000] = true ∧ boots [.req 0x400000000, .reset] = false := by decide
theorem witness_PinsShowWordsAfterLatency : 0 < 1 ∧
    (tickWords [.word 0x10040100, .resetTick])[0]? = some (some 0x10040100) ∧
    (tickWords [.word 0x10040100, .resetTick])[1]? = some none := by decide
theorem witness_SerialOrderLosesNoBit : (List.finRange 10).reverse.Perm (List.finRange 10) ∧
    wireBits (List.finRange 10).reverse 0x2AB = wireBits (List.finRange 10).reverse 0x2AB :=
  ⟨List.reverse_perm _, rfl⟩
theorem witness_CounterWidthHoldsLegalValues : 4 ≤ 4 ∧ (-4 : Int) ≤ -4 ∧ (4 : Int) ≤ 4 ∧
    (storedCounter 4 (-4)).toInt = -4 := by decide

end Sys2Proof.Tests
end

section
/-! SUPPORT. What the decoder can read from each kind of request, and what a completing operation leaves: one equation per operation,
one inversion lemma per operation that reads a counter, and what they say of counters and of the host's fields. -/

namespace Sys2Proof.Machine

/-! ### Decoded requests -/

/-- A composer request is an ACT or a CTL (30_encoding.md R62). -/
theorem decode_composer_cases (q : Req35) :
    (∃ p, decode (.composer q) = .act p) ∨ (∃ hs vs, decode (.composer q) = .ctl hs vs) := by
  cases h : reqSelect q with
  | true => exact .inl ⟨reqPixel q, by simp [decode, decodeReq35, h]⟩
  | false => exact .inr ⟨reqHsync q, reqVsync q, by simp [decode, decodeReq35, h]⟩

/-- A lane encoder's request is a LACT or an LCTL at that encoder (30_encoding.md R63). -/
theorem decode_lane_cases (l : Lane) (k : LReq11) :
    (∃ d, decode (.lane l k) = .lact l d) ∨ (∃ c0 c1, decode (.lane l k) = .lctl l c0 c1) := by
  cases h : laneSelect k with
  | true => exact .inl ⟨laneData k, by simp [decode, decodeLReq11, h]⟩
  | false => exact .inr ⟨laneC0 k, laneC1 k, by simp [decode, decodeLReq11, h]⟩

/-- The table words that decode are those that stand for a request. -/
theorem decodeTableWord_eq_some_iff {nbits w : Nat} {i : Instr} :
    decodeTableWord nbits w = some i ↔ ∃ r, tableRequest nbits w = .ok r ∧ decode r = i := by
  unfold decodeTableWord
  cases tableRequest nbits w <;> simp

/-- A request presented next is decoded and run, at the state in which it was presented. -/
theorem step_present_ofRequest (s : State) (r : Request) : step (s.present (.ofRequest r)) = exec (decode r) s := by
  cases r <;> rfl

/-! ### The start states -/

@[simp] theorem State.reset_cnt : State.reset.cnt = .zero := rfl
@[simp] theorem State.reset_log : State.reset.log = [] := rfl
@[simp] theorem State.powerUp_cnt : State.powerUp.cnt = .unset := rfl
@[simp] theorem State.powerUp_log : State.powerUp.log = [] := rfl

/-! ### Outcomes of the operations -/

theorem exec_act (p : Word32) (s : State) : exec (.act p) s = execAct p s := rfl

theorem exec_lact (l : Lane) (d : Byte) (s : State) : exec (.lact l d) s = execLact l d s := rfl

theorem exec_ctl (hs vs : Bool) (s : State) :
    exec (.ctl hs vs) s = .next ((s.setCounters .zero).deliver (.word (ctlWord hs vs))) := rfl

theorem exec_lctl (l : Lane) (c0 c1 : Bool) (s : State) :
    exec (.lctl l c0 c1) s = .next ((s.setCell l (.val 0)).deliver (.symbol l (encodeControl c0 c1))) := rfl

/-- A LACT whose counter reads completes (40_lane_encoder.md R92). -/
theorem exec_lact_of_ok {l : Lane} {s : State} {c : Int} (d : Byte) (h : readCounter s.cnt l = .ok c) :
    exec (.lact l d) s =
      .next ((s.setCell l (.val (encodeActive d c).2)).deliver (.symbol l (encodeActive d c).1)) := by
  simp only [exec_lact, execLact, h]

/-- A LACT whose counter does not read faults (60_exceptions.md R143). -/
theorem exec_lact_of_error {l : Lane} {s : State} {f : LaneFault} (d : Byte) (h : readCounter s.cnt l = .error f) :
    exec (.lact l d) s = .fault (.laneFaults [f] s.cnt) := by
  simp only [exec_lact, execLact, h, raise]

/-- An ACT whose three counters read completes (41_composer.md R124). -/
theorem exec_act_of_ok {s : State} {ca cb cc : Int} (p : Word32) (ha : readCounter s.cnt .a = .ok ca)
    (hb : readCounter s.cnt .b = .ok cb) (hc : readCounter s.cnt .c = .ok cc) :
    exec (.act p) s = .next ((s.setCounters
        ⟨.val (encodeActive (component .a p) ca).2, .val (encodeActive (component .b p) cb).2,
          .val (encodeActive (component .c p) cc).2⟩).deliver
        (.word (pack (encodeActive (component .a p) ca).1 (encodeActive (component .b p) cb).1
          (encodeActive (component .c p) cc).1))) := by
  simp only [exec_act, execAct, ha, hb, hc]

/-- An ACT with a counter that does not read faults, with every failing read (60_exceptions.md R143). -/
theorem exec_act_of_faults {s : State} (p : Word32)
    (h : faultsOf [readCounter s.cnt .a, readCounter s.cnt .b, readCounter s.cnt .c] ≠ []) :
    exec (.act p) s = .fault (.laneFaults
      (faultsOf [readCounter s.cnt .a, readCounter s.cnt .b, readCounter s.cnt .c]) s.cnt) := by
  rcases execAct_cases p s with ⟨ca, cb, cc, ha, hb, hc, _⟩ | ⟨_, g⟩
  · simp [ha, hb, hc, faultsOf] at h
  · exact g

/-- What a LACT that completes has read and done (40_lane_encoder.md R92). -/
theorem exec_lact_next {l : Lane} {d : Byte} {s t : State} (h : exec (.lact l d) s = .next t) :
    ∃ c, readCounter s.cnt l = .ok c ∧
      t = (s.setCell l (.val (encodeActive d c).2)).deliver (.symbol l (encodeActive d c).1) := by
  rw [exec_lact] at h
  rcases execLact_cases l d s with ⟨c, hc, g⟩ | ⟨_, _, g⟩ <;> rw [g] at h <;> cases h
  exact ⟨c, hc, rfl⟩

/-- What an ACT that completes has read and done (41_composer.md R124). -/
theorem exec_act_next {p : Word32} {s t : State} (h : exec (.act p) s = .next t) :
    ∃ ca cb cc, readCounter s.cnt .a = .ok ca ∧ readCounter s.cnt .b = .ok cb ∧ readCounter s.cnt .c = .ok cc ∧
      t = (s.setCounters
        ⟨.val (encodeActive (component .a p) ca).2, .val (encodeActive (component .b p) cb).2,
          .val (encodeActive (component .c p) cc).2⟩).deliver
        (.word (pack (encodeActive (component .a p) ca).1 (encodeActive (component .b p) cb).1
          (encodeActive (component .c p) cc).1)) := by
  rw [exec_act] at h
  rcases execAct_cases p s with ⟨ca, cb, cc, ha, hb, hc, g⟩ | ⟨_, g⟩ <;> rw [g] at h <;> cases h
  exact ⟨ca, cb, cc, ha, hb, hc, rfl⟩

/-- The counters fix what an operation does at every state that has them: the counters it leaves and the one event it delivers, or the faults
it raises (10_state.md R20, R31). -/
theorem exec_fixed_by_counters (i : Instr) (k : Counters) :
    (∃ k' e, ∀ s : State, s.cnt = k → exec i s = .next ((s.setCounters k').deliver e)) ∨
    (∃ fs, ∀ s : State, s.cnt = k → exec i s = .fault (.laneFaults fs k)) := by
  cases i with
  | act p =>
    by_cases h : ∃ ca cb cc, readCounter k .a = .ok ca ∧ readCounter k .b = .ok cb ∧ readCounter k .c = .ok cc
    · obtain ⟨ca, cb, cc, ha, hb, hc⟩ := h
      exact .inl ⟨_, _, fun s hs => exec_act_of_ok p (hs ▸ ha) (hs ▸ hb) (hs ▸ hc)⟩
    · refine .inr ⟨faultsOf [readCounter k .a, readCounter k .b, readCounter k .c], fun s hs => ?_⟩
      subst hs
      rcases execAct_cases p s with ⟨ca, cb, cc, ha, hb, hc, _⟩ | ⟨_, g⟩
      · exact absurd ⟨ca, cb, cc, ha, hb, hc⟩ h
      · exact g
  | ctl hs vs => exact .inl ⟨_, _, fun s _ => exec_ctl hs vs s⟩
  | lact l d =>
    cases h : readCounter k l with
    | ok c =>
      exact .inl ⟨k.set l (.val (encodeActive d c).2), .symbol l (encodeActive d c).1,
        fun s hs => by subst hs; exact exec_lact_of_ok d h⟩
    | error f => exact .inr ⟨[f], fun s hs => hs ▸ exec_lact_of_error d (hs ▸ h)⟩
  | lctl l c0 c1 =>
    exact .inl ⟨k.set l (.val 0), .symbol l (encodeControl c0 c1), fun s hs => by subst hs; exact exec_lctl l c0 c1 s⟩

/-- A lane operation that completes writes its own counter and hands over one symbol of its lane, and does nothing else
(40_lane_encoder.md R92, R97). -/
theorem laneOperation_next {l : Lane} {i : Instr} {s t : State}
    (hi : (∃ d, i = .lact l d) ∨ (∃ c0 c1, i = .lctl l c0 c1)) (h : exec i s = .next t) :
    ∃ x out, t = (s.setCell l x).deliver (.symbol l out) := by
  rcases hi with ⟨d, rfl⟩ | ⟨c0, c1, rfl⟩
  · obtain ⟨c, _, ht⟩ := exec_lact_next h
    exact ⟨_, _, ht⟩
  · rw [exec_lctl] at h
    cases h
    exact ⟨_, _, rfl⟩

/-! ### The counter's bound -/

theorem onesBelow_le {w : Nat} (v : BitVec w) (n : Nat) : onesBelow v n ≤ n := by
  induction n with
  | zero => exact Nat.le_refl 0
  | succ n ih =>
    have hbit : (v.getLsbD n).toNat ≤ 1 := Bool.toNat_le _
    simp only [onesBelow]
    omega

/-- The half-disparity of a byte lies in [-4, 4] (40_lane_encoder.md R81). -/
theorem halfDisparity_bounds (v : Byte) : -4 ≤ halfDisparity v ∧ halfDisparity v ≤ 4 := by
  have hle : popcount v ≤ 8 := onesBelow_le v 8
  simp only [halfDisparity, ones, zeros]
  omega

/-- Phase 2 keeps the counter in [-4, 4]: a counter other than 0 is moved against its sign if at all, by at most 5, and one at 0 by the data
disparity, which lies in [-4, 4] itself (40_lane_encoder.md R88 to R91, R93). -/
theorem phase2_counter_bounds (q : Intermediate) {c : Int} (hc : -4 ≤ c ∧ c ≤ 4) :
    -4 ≤ (phase2 q c).2 ∧ (phase2 q c).2 ≤ 4 := by
  have hd : -4 ≤ dataDisparity q ∧ dataDisparity q ≤ 4 := halfDisparity_bounds (lower8 q)
  simp only [phase2, branch]
  by_cases hzero : c = 0 ∨ dataDisparity q = 0
  · simp only [hzero, if_true]
    split <;> omega
  · by_cases hsame : (0 < c ∧ 0 < dataDisparity q) ∨ (c < 0 ∧ dataDisparity q < 0)
    · simp only [hzero, hsame, if_true, if_false]
      split <;> omega
    · simp only [hzero, hsame, if_false]
      split <;> omega

/-- The cell a LACT writes may be read again (40_lane_encoder.md R93). -/
theorem ready_encodeActive_of_reads {k : Counters} {l : Lane} {c : Int} (d : Byte) (h : readCounter k l = .ok c) :
    (Cell.val (encodeActive d c).2).ready = true := by
  obtain ⟨_, hc⟩ := readCounter_ok_iff.1 h
  exact decide_eq_true (phase2_counter_bounds (intermediate d) hc)

theorem Cell.legal_of_ready {x : Cell} (h : x.ready = true) : x.legal = true := by
  cases x with
  | unset => rfl
  | val v => exact h

theorem Counters.ready_zero : Counters.zero.Ready := fun l => by simp [Cell.ready]

theorem Counters.legal_unset : Counters.unset.Legal := fun l => by simp [Cell.legal]

theorem Counters.Ready.legal {k : Counters} (h : k.Ready) : k.Legal := fun l => Cell.legal_of_ready (h l)

/-- Writing a legal cell keeps the counters legal. -/
theorem Counters.Legal.set {k : Counters} (h : k.Legal) (l : Lane) {x : Cell} (hx : x.legal = true) :
    (k.set l x).Legal := by
  intro m
  by_cases hm : m = l
  · subst hm
    rwa [Counters.get_set_same]
  · rw [Counters.get_set_other k x hm]
    exact h m

/-- The counters an ACT leaves may all be read again (41_composer.md R124, 40_lane_encoder.md R93). -/
theorem exec_act_ready {p : Word32} {s t : State} (h : exec (.act p) s = .next t) : t.cnt.Ready := by
  obtain ⟨ca, cb, cc, ha, hb, hc, rfl⟩ := exec_act_next h
  intro l
  cases l with
  | a => exact ready_encodeActive_of_reads _ ha
  | b => exact ready_encodeActive_of_reads _ hb
  | c => exact ready_encodeActive_of_reads _ hc

/-- No operation makes a legal counter illegal (40_lane_encoder.md R93). -/
theorem exec_keeps_legal {i : Instr} {s t : State} (hs : s.cnt.Legal) (h : exec i s = .next t) : t.cnt.Legal := by
  cases i with
  | act p => exact (exec_act_ready h).legal
  | ctl hsync vsync =>
    rw [exec_ctl] at h
    cases h
    exact Counters.ready_zero.legal
  | lact l d =>
    obtain ⟨c, hc, rfl⟩ := exec_lact_next h
    exact hs.set l (Cell.legal_of_ready (ready_encodeActive_of_reads d hc))
  | lctl l c0 c1 =>
    rw [exec_lctl] at h
    cases h
    exact hs.set l rfl

end Sys2Proof.Machine
end

section
/-! PROOFS. The statements about the state of 10_state.md: its invariants and start values, the frame and the inputs of the operations, and the
causes of a counter's change. -/

namespace Sys2Proof.Machine

/-- Settles O37: a step resets the counters or runs one operation, and each keeps the counters legal. -/
theorem stepKeepsCountersLegal : Obligations.StepKeepsCountersLegal := by
  intro s t hs h
  obtain ⟨i, rest, _, ⟨_, rfl⟩ | ⟨q, _, hq⟩ | ⟨q, _, rfl | ⟨u, _, rfl⟩⟩ | ⟨l, k, _, hk⟩⟩ := step_cases h
  · exact Counters.ready_zero.legal
  · exact exec_keeps_legal (s := { s with input := rest }) hs hq
  · exact Counters.ready_zero.legal
  · exact Counters.ready_zero.legal
  · exact exec_keeps_legal (s := { s with input := rest }) hs hk

/-- Settles O31. -/
theorem laneOperationFrame : Obligations.LaneOperationFrame := by
  intro l i s t hi h
  obtain ⟨x, out, rfl⟩ := laneOperation_next hi h
  exact ⟨fun m hm => Counters.get_set_other s.cnt x hm, rfl, rfl, out, rfl⟩

/-- Settles O34: at both states the outcome is the one the common counters fix. -/
theorem operationsReadCountersOnly : Obligations.OperationsReadCountersOnly := by
  intro i s s' hs
  rcases exec_fixed_by_counters i s.cnt with ⟨k', e, h⟩ | ⟨fs, h⟩
  · have hnext := h s rfl
    refine ⟨fun t ht => ?_, fun f hf => ?_⟩
    · rw [hnext] at ht
      cases ht
      exact ⟨_, e, h s' hs.symm, rfl, rfl, rfl⟩
    · rw [hnext] at hf
      cases hf
  · have hfault := h s rfl
    refine ⟨fun t ht => ?_, fun f hf => ?_⟩
    · rw [hfault] at ht
      cases ht
    · rw [h s' hs.symm, ← hfault, hf]

/-- Settles O35: by the input the step took. A lane operation that changes this counter is one of this lane, by its frame. -/
theorem counterChangesHaveACause : Obligations.CounterChangesHaveACause := by
  intro s t l h hne
  obtain ⟨i, rest, hin, ⟨rfl, rfl⟩ | ⟨q, rfl, hq⟩ | ⟨q, rfl, hreset⟩ | ⟨m, k, rfl, hk⟩⟩ := step_cases h
  · exact ⟨_, rest, hin, .inl ⟨by simp, .inl rfl⟩⟩
  · rcases decode_composer_cases q with ⟨p, hp⟩ | ⟨hs, vs, hc⟩
    · exact ⟨_, rest, hin, .inr (.inl ⟨q, p, rfl, hp⟩)⟩
    · rw [hc, exec_ctl] at hq
      cases hq
      exact ⟨_, rest, hin, .inl ⟨by simp, .inr (.inr (.inl ⟨q, hs, vs, rfl, hc⟩))⟩⟩
  · have hzero : t.cnt = .zero := by rcases hreset with rfl | ⟨u, _, rfl⟩ <;> rfl
    exact ⟨_, rest, hin, .inl ⟨by simp [hzero], .inr (.inl ⟨q, rfl⟩)⟩⟩
  · have hframe : ∀ n, n ≠ m → t.cnt.get n = s.cnt.get n := (laneOperationFrame m _ _ t (decode_lane_cases m k) hk).1
    obtain rfl : l = m := by_contra fun hlm => hne (hframe l hlm)
    rcases decode_lane_cases l k with ⟨d, hd⟩ | ⟨c0, c1, hc⟩
    · exact ⟨_, rest, hin, .inr (.inr ⟨k, d, rfl, hd⟩)⟩
    · rw [hc, exec_lctl] at hk
      cases hk
      exact ⟨_, rest, hin, .inl ⟨by simp, .inr (.inr (.inr ⟨k, c0, c1, rfl, hc⟩))⟩⟩

/-- Settles O7. -/
theorem placedTableWordRunsNext : Obligations.PlacedTableWordRunsNext := by
  intro s nbits w i h
  obtain ⟨r, hr, rfl⟩ := decodeTableWord_eq_some_iff.1 h
  have hplaced : s.withFetchWord nbits w = s.present (.ofRequest r) := by simp only [State.withFetchWord, hr]
  rw [hplaced, step_present_ofRequest]

/-- Settles O38. -/
theorem initialCountersLegal : Obligations.InitialCountersLegal :=
  ⟨Counters.ready_zero.legal, Counters.legal_unset, Counters.ready_zero⟩

/-- Settles O41: the account of an empty log is 0, and an Unset counter holds no value. -/
theorem initialCounterMeaning : Obligations.InitialCounterMeaning := by
  constructor
  · intro l v hv
    rw [State.reset_cnt, Counters.get_zero] at hv
    cases hv
    rfl
  · intro l v hv
    rw [State.powerUp_cnt, Counters.get_unset] at hv
    cases hv

/-- Settles O43: both logs are empty. -/
theorem initialWordTopBitsZero : Obligations.InitialWordTopBitsZero :=
  ⟨fun _ hw => absurd hw List.not_mem_nil, fun _ hw => absurd hw List.not_mem_nil⟩

/-- Settles O45. -/
theorem resetValues : Obligations.ResetValues := by
  have hpins : ∀ latency idle t, pinWord latency idle State.reset.log t = idle := by
    intro latency idle t
    simp [pinWord, tickWords]
  exact ⟨rfl, rfl, rfl, by decide, rfl, hpins⟩

/-- Settles O46. -/
theorem powerUpBehaviour : Obligations.PowerUpBehaviour := by
  have hunset : ∀ l, State.powerUp.cnt.get l = .unset := Counters.get_unset
  have hread : ∀ l, readCounter State.powerUp.cnt l = .error ⟨.unresetCounter, l⟩ :=
    fun l => readCounter_error_iff.2 (.inl ⟨hunset l, rfl⟩)
  have hfaults : faultsOf [readCounter State.powerUp.cnt .a, readCounter State.powerUp.cnt .b,
      readCounter State.powerUp.cnt .c] = [⟨.unresetCounter, .a⟩, ⟨.unresetCounter, .b⟩, ⟨.unresetCounter, .c⟩] := by
    simp only [hread, faultsOf]
  refine ⟨hunset, fun p => ?_, fun l d => ?_, fun l c0 c1 => ?_, fun hs vs => ?_⟩
  · have h := exec_act_of_faults (s := State.powerUp) p (by rw [hfaults]; exact List.cons_ne_nil _ _)
    rwa [hfaults] at h
  · exact exec_lact_of_error d (hread l)
  · exact ⟨_, exec_lctl l c0 c1 _, by simp⟩
  · exact ⟨_, exec_ctl hs vs _, rfl⟩

/-- Settles O53: [-4, 4] lies in [-2 ^ (width - 1), 2 ^ (width - 1)), since width - 1 is at least 3. -/
theorem counterWidthHoldsLegalValues : Obligations.CounterWidthHoldsLegalValues := by
  refine ⟨fun width v hw h1 h2 => ?_, Nat.le_add_right 4 _⟩
  have hpow : (2 : Int) ^ 3 ≤ 2 ^ (width - 1) := pow_le_pow_right₀ (by decide) (by omega)
  exact BitVec.toInt_ofInt_eq_self (by omega) (by omega) (by omega)

end Sys2Proof.Machine
end

section
/-! SUPPORT. What a step adds to the record of what was delivered, what one lane takes part in of an ACT, and which bits of a symbol the wire
carries. -/

namespace Sys2Proof.Machine

/-! ### The record of what was delivered -/

@[simp] theorem wordsOf_append (es fs : List Event) : wordsOf (es ++ fs) = wordsOf es ++ wordsOf fs := by
  induction es with
  | nil => rfl
  | cons e es ih => cases e <;> simp [wordsOf, ih]

theorem length_wordsOf_singleton_le (e : Event) : (wordsOf [e]).length ≤ 1 := by
  cases e <;> simp [wordsOf]

/-- An operation that completes hands over exactly one thing (41_composer.md R129). -/
theorem exec_next_log {i : Instr} {s t : State} (h : exec i s = .next t) : ∃ e, t.log = s.log ++ [e] := by
  rcases exec_fixed_by_counters i s.cnt with ⟨k, e, hnext⟩ | ⟨fs, hfault⟩
  · rw [hnext s rfl] at h
    cases h
    exact ⟨e, rfl⟩
  · rw [hfault s rfl] at h
    cases h

/-- A step delivers one event, and after it at most the mark of a reset in the same tick (41_composer.md R130,
70_reset_and_hazards.md R162). -/
theorem step_next_log {s t : State} (h : step s = .next t) :
    ∃ e marks, t.log = s.log ++ e :: marks ∧ (marks = [] ∨ marks = [.resetAfterWord]) := by
  obtain ⟨i, rest, _, ⟨_, rfl⟩ | ⟨q, _, hq⟩ | ⟨q, _, rfl | ⟨u, hu, rfl⟩⟩ | ⟨l, k, _, hk⟩⟩ := step_cases h
  · exact ⟨.resetTick, [], rfl, .inl rfl⟩
  · obtain ⟨e, he⟩ := exec_next_log hq
    exact ⟨e, [], he, .inl rfl⟩
  · exact ⟨.resetTick, [], rfl, .inl rfl⟩
  · obtain ⟨e, he⟩ := exec_next_log hu
    exact ⟨e, [.resetAfterWord], by simp [he], .inr rfl⟩
  · obtain ⟨e, he⟩ := exec_next_log hk
    exact ⟨e, [], he, .inl rfl⟩

/-! ### One lane of an operation -/

/-- A lane's read looks at that lane's cell alone (40_lane_encoder.md R92). -/
theorem readCounter_congr {k k' : Counters} {l : Lane} (h : k.get l = k'.get l) : readCounter k l = readCounter k' l := by
  simp only [readCounter, h]

/-- An ACT that completes hands over one word, and each lane's counter and field are those of a LACT of the lane's component on the lane's counter
(41_composer.md R124). -/
theorem exec_act_lanes {p : Word32} {s t : State} (h : exec (.act p) s = .next t) :
    ∃ w, t.log = s.log ++ [.word w] ∧ ∀ l, ∃ c, readCounter s.cnt l = .ok c ∧
      t.cnt.get l = .val (encodeActive (component l p) c).2 ∧ wordField l w = (encodeActive (component l p) c).1 := by
  obtain ⟨ca, cb, cc, ha, hb, hc, rfl⟩ := exec_act_next h
  obtain ⟨hfa, hfb, hfc⟩ := wordField_pack (encodeActive (component .a p) ca).1 (encodeActive (component .b p) cb).1
    (encodeActive (component .c p) cc).1
  refine ⟨_, rfl, fun l => ?_⟩
  cases l with
  | a => exact ⟨ca, ha, rfl, hfa⟩
  | b => exact ⟨cb, hb, rfl, hfb⟩
  | c => exact ⟨cc, hc, rfl, hfc⟩

/-! ### The wire -/

/-- What is sent of two symbols is the same exactly when they agree at each position sent (20_memory.md R44). -/
theorem wireBits_eq_iff {order : List (Fin 10)} {x y : Symbol} :
    wireBits order x = wireBits order y ↔ ∀ i ∈ order, x.getLsbD i.val = y.getLsbD i.val :=
  List.map_inj_left

end Sys2Proof.Machine
end

section
/-! PROOFS. The statements about 20_memory.md: the order of what is delivered, the independence of the lanes, and the bits on the wire. -/

namespace Sys2Proof.Machine

/-- Settles O13: the step's one event holds at most one word, and the mark that may follow it holds none. -/
theorem deliveredWordsStayInOrder : Obligations.DeliveredWordsStayInOrder := by
  intro s t h
  obtain ⟨e, marks, hlog, hmarks⟩ := step_next_log h
  have hnone : wordsOf marks = [] := by rcases hmarks with rfl | rfl <;> rfl
  have hwords : wordsOf t.log = wordsOf s.log ++ wordsOf [e] := by
    rw [hlog, List.append_cons, wordsOf_append, wordsOf_append, hnone, List.append_nil]
  exact ⟨⟨_, hlog⟩, _, hwords, length_wordsOf_singleton_le e⟩

/-- Settles O33: equal cells of the lane give equal reads, and a lane's result is a function of its read and its input. -/
theorem lanesAreIndependent : Obligations.LanesAreIndependent := by
  refine ⟨fun l d s s' t hcell h => ?_, fun l c0 c1 s => ?_, fun l p p' s s' t t' hcell hcomp h h' => ?_⟩
  · obtain ⟨c, hc, rfl⟩ := exec_lact_next h
    exact ⟨_, _, exec_lact_of_ok d (readCounter_congr hcell ▸ hc), by simp, rfl, rfl,
      fun m hm => Counters.get_set_other s.cnt _ hm⟩
  · exact ⟨_, exec_lctl l c0 c1 s, fun m hm => Counters.get_set_other s.cnt _ hm⟩
  · obtain ⟨w, hlog, hlanes⟩ := exec_act_lanes h
    obtain ⟨w', hlog', hlanes'⟩ := exec_act_lanes h'
    obtain ⟨c, hc, hcnt, hfield⟩ := hlanes l
    obtain ⟨c', hc', hcnt', hfield'⟩ := hlanes' l
    rw [readCounter_congr hcell, hc'] at hc
    cases hc
    exact ⟨w, w', by rw [hcnt, hcnt', hcomp], hlog, hlog', by rw [hfield, hfield', hcomp]⟩

/-- Settles O52: an order of all ten positions sends every bit. -/
theorem serialOrderLosesNoBit : Obligations.SerialOrderLosesNoBit := by
  intro order horder x y hwire
  refine BitVec.eq_of_getLsbD_eq fun i hi => ?_
  have hsent : (⟨i, hi⟩ : Fin 10) ∈ order := horder.mem_iff.2 (List.mem_finRange _)
  exact wireBits_eq_iff.1 hwire ⟨i, hi⟩ hsent

end Sys2Proof.Machine
end

section
/-! SUPPORT. Requests as their fields put together, bit by bit; what the decoder reads from them; and the bits of a pixel that an ACT reads
(30_encoding.md R62 to R66, R70). -/

namespace Sys2Proof.Machine

/-! ### A request is its fields put together -/

/-- The bits of `{S, V, H, P}` (30_encoding.md R62). -/
theorem getLsbD_packReq35 (s v h : Bool) (p : Word32) (k : Nat) :
    (packReq35 s v h p).getLsbD k =
      if k < 32 then p.getLsbD k else if k = 32 then h else if k = 33 then v else decide (k = 34) && s := by
  simp only [packReq35, BitVec.getLsbD_append, BitVec.getLsbD_ofBool]
  by_cases hp : k < 32
  · simp only [hp, if_true]
  by_cases hh : k = 32
  · subst hh; simp
  by_cases hv : k = 33
  · subst hv; simp
  have h0 : ¬ k - 32 < 1 := by omega
  have h1 : ¬ k - 32 - 1 < 1 := by omega
  have h2 : k - 32 - 1 - 1 = 0 ↔ k = 34 := by omega
  simp only [hp, hh, hv, h0, h1, h2, if_false]

/-- The bits of `{S, C1, C0, D}` (30_encoding.md R63). -/
theorem getLsbD_packLReq11 (s c1 c0 : Bool) (d : Byte) (k : Nat) :
    (packLReq11 s c1 c0 d).getLsbD k =
      if k < 8 then d.getLsbD k else if k = 8 then c0 else if k = 9 then c1 else decide (k = 10) && s := by
  simp only [packLReq11, BitVec.getLsbD_append, BitVec.getLsbD_ofBool]
  by_cases hd : k < 8
  · simp only [hd, if_true]
  by_cases h0 : k = 8
  · subst h0; simp
  by_cases h1 : k = 9
  · subst h1; simp
  have g0 : ¬ k - 8 < 1 := by omega
  have g1 : ¬ k - 8 - 1 < 1 := by omega
  have g2 : k - 8 - 1 - 1 = 0 ↔ k = 10 := by omega
  simp only [hd, h0, h1, g0, g1, g2, if_false]

/-- The pixel is the low word of the request (30_encoding.md R62). -/
theorem getLsbD_reqPixel (q : Req35) {k : Nat} (hk : k < 32) : (reqPixel q).getLsbD k = q.getLsbD k := by
  simp [reqPixel, hk]

/-- The data byte is the low byte of the request (30_encoding.md R63). -/
theorem getLsbD_laneData (r : LReq11) {k : Nat} (hk : k < 8) : (laneData r).getLsbD k = r.getLsbD k := by
  simp [laneData, hk]

/-- Every REQ35 is its four fields put together: no bit lies outside them (30_encoding.md R62). -/
theorem packReq35_fields (q : Req35) : packReq35 (reqSelect q) (reqVsync q) (reqHsync q) (reqPixel q) = q := by
  refine BitVec.eq_of_getLsbD_eq fun k hk => ?_
  rw [getLsbD_packReq35]
  rcases (by omega : k < 32 ∨ k = 32 ∨ k = 33 ∨ k = 34) with h | rfl | rfl | rfl
  · rw [if_pos h, getLsbD_reqPixel q h]
  · rfl
  · rfl
  · rfl

/-- Every LREQ11 is its four fields put together (30_encoding.md R63). -/
theorem packLReq11_fields (k : LReq11) : packLReq11 (laneSelect k) (laneC1 k) (laneC0 k) (laneData k) = k := by
  refine BitVec.eq_of_getLsbD_eq fun i hi => ?_
  rw [getLsbD_packLReq11]
  rcases (by omega : i < 8 ∨ i = 8 ∨ i = 9 ∨ i = 10) with h | rfl | rfl | rfl
  · rw [if_pos h, getLsbD_laneData k h]
  · rfl
  · rfl
  · rfl

/-! ### What the decoder reads -/

theorem decode_composer_act {q : Req35} (h : q.getLsbD 34 = true) : decode (.composer q) = .act (reqPixel q) :=
  if_pos h

theorem decode_composer_ctl {q : Req35} (h : q.getLsbD 34 = false) :
    decode (.composer q) = .ctl (q.getLsbD 32) (q.getLsbD 33) :=
  if_neg (Bool.not_eq_true _ ▸ h)

theorem decode_lane_lact {k : LReq11} (l : Lane) (h : k.getLsbD 10 = true) : decode (.lane l k) = .lact l (laneData k) :=
  if_pos h

theorem decode_lane_lctl {k : LReq11} (l : Lane) (h : k.getLsbD 10 = false) :
    decode (.lane l k) = .lctl l (k.getLsbD 8) (k.getLsbD 9) :=
  if_neg (Bool.not_eq_true _ ▸ h)

/-- The operation in a REQ35 given by its fields (30_encoding.md R62). -/
@[simp] theorem decode_packReq35 (s v h : Bool) (p : Word32) :
    decode (.composer (packReq35 s v h p)) = if s then .act p else .ctl h v := by
  simp [decode, decodeReq35]

/-- The operation in an LREQ11 given by its fields (30_encoding.md R63). -/
@[simp] theorem decode_packLReq11 (l : Lane) (s c1 c0 : Bool) (d : Byte) :
    decode (.lane l (packLReq11 s c1 c0 d)) = if s then .lact l d else .lctl l c0 c1 := by
  simp [decode, decodeLReq11]

/-- Re-encoding keeps the operands and S, and clears the other fields (30_encoding.md R70, R72). -/
theorem encode_decode_packReq35 (s v h : Bool) (p : Word32) :
    encode (decode (.composer (packReq35 s v h p))) =
      .composer (packReq35 s (!s && v) (!s && h) (if s then p else 0)) := by
  rw [decode_packReq35]
  cases s <;> rfl

/-- Re-encoding keeps the operands and S, and clears the other fields (30_encoding.md R70, R72). -/
theorem encode_decode_packLReq11 (l : Lane) (s c1 c0 : Bool) (d : Byte) :
    encode (decode (.lane l (packLReq11 s c1 c0 d))) =
      .lane l (packLReq11 s (!s && c1) (!s && c0) (if s then d else 0)) := by
  rw [decode_packLReq11]
  cases s <;> rfl

/-! ### What an ACT and a LACT read of their request -/

/-- Two words that agree below bit n have the same bytes there. -/
theorem extractByte_congr {w w' n : Nat} {x : BitVec w} {y : BitVec w'} (h : ∀ k, k < n → x.getLsbD k = y.getLsbD k)
    (start : Nat) (hstart : start + 8 ≤ n) : x.extractLsb' start 8 = y.extractLsb' start 8 := by
  refine BitVec.eq_of_getLsbD_eq fun i hi => ?_
  rw [BitVec.getLsbD_extractLsb', BitVec.getLsbD_extractLsb', h (start + i) (by omega)]

/-- The colour components lie in the lower 24 bits of the pixel (30_encoding.md R66). -/
theorem component_congr {p p' : Word32} (h : ∀ k, k < 24 → p.getLsbD k = p'.getLsbD k) (l : Lane) :
    component l p = component l p' := by
  cases l with
  | a => exact extractByte_congr h 0 (by decide)
  | b => exact extractByte_congr h 8 (by decide)
  | c => exact extractByte_congr h 16 (by decide)

/-- An ACT reads its pixel's colour components and nothing else of it (41_composer.md R124). -/
theorem exec_act_congr {p p' : Word32} (h : ∀ l, component l p = component l p') (s : State) :
    exec (.act p) s = exec (.act p') s := by
  simp only [exec_act, execAct, h]

/-- A LACT's operand lies in the lower 8 bits of its request (30_encoding.md R63). -/
theorem laneData_congr {r r' : LReq11} (h : ∀ k, k < 8 → r.getLsbD k = r'.getLsbD k) : laneData r = laneData r' :=
  extractByte_congr h 0 (by decide)

/-! ### Refusal -/

/-- No input is refused: every request is an operation (30_encoding.md R69), and a reset always completes. -/
theorem tick_never_refused (i : Input) (t : State) (r : Refusal) : tick i t ≠ .refused r := by
  cases i with
  | reset => exact fun h => by cases h
  | req q => exact exec_never_refused _ t r
  | lane l k => exact exec_never_refused _ t r
  | resetReq q =>
    intro h
    simp only [tick] at h
    rcases resetOver_cases (Config.resetReqEmits t.choice) (exec (decode (.composer q)) t) t with
      ⟨_, g⟩ | ⟨_, _, _, g⟩ | ⟨_, _, _, g⟩ | ⟨_, r', hr', _⟩
    · rw [g] at h; cases h
    · rw [g] at h; cases h
    · rw [g] at h; cases h
    · exact exec_never_refused _ t r' hr'

end Sys2Proof.Machine
end

section
/-! PROOFS. The statements about 30_encoding.md: the decoder and the encoder, the ignored bits, and the step that runs what was decoded. -/

namespace Sys2Proof.Machine

/-- Settles O1: the fields of the canonical request are the operands. -/
theorem decodeEncodeRoundTrip : Obligations.DecodeEncodeRoundTrip := by
  intro i _
  cases i with
  | act p => exact decode_packReq35 true false false p
  | ctl hs vs => exact decode_packReq35 false vs hs 0
  | lact l d => exact decode_packLReq11 l true false false d
  | lctl l c0 c1 => exact decode_packLReq11 l false c1 c0 0

/-- Settles O2: a request is its fields put together, and what comes back has the ignored ones at 0. Which field holds bit k says the rest. -/
theorem encodeDecodeClearsIgnoredBits : Obligations.EncodeDecodeClearsIgnoredBits := by
  constructor
  · intro q
    rw [← packReq35_fields q]
    refine ⟨_, encode_decode_packReq35 _ _ _ _, fun k => ?_⟩
    simp only [getLsbD_packReq35]
    rcases (by omega : k < 32 ∨ k = 32 ∨ k = 33 ∨ 34 ≤ k) with hk | rfl | rfl | hk
    · have h33 : k ≠ 33 := by omega
      cases reqSelect q <;> simp [hk, hk.ne, h33]
    · cases reqSelect q <;> simp
    · cases reqSelect q <;> simp
    · have hlow : ¬ k < 32 := by omega
      have h32 : k ≠ 32 := by omega
      have h33 : k ≠ 33 := by omega
      cases reqSelect q <;> simp [hlow, h32, h33]
  · intro l r
    rw [← packLReq11_fields r]
    refine ⟨_, encode_decode_packLReq11 _ _ _ _ _, fun k => ?_⟩
    simp only [getLsbD_packLReq11]
    rcases (by omega : k < 8 ∨ k = 8 ∨ k = 9 ∨ 10 ≤ k) with hk | rfl | rfl | hk
    · have h9 : k ≠ 9 := by omega
      cases laneSelect r <;> simp [hk, hk.ne, h9]
    · cases laneSelect r <;> simp
    · cases laneSelect r <;> simp
    · have hlow : ¬ k < 8 := by omega
      have h8 : k ≠ 8 := by omega
      have h9 : k ≠ 9 := by omega
      cases laneSelect r <;> simp [hlow, h8, h9]

/-- Settles O5: an ACT reads 24 bits of its pixel, and the other operations have the fields that R70 does not list as their operands. -/
theorem ignoredBitsHaveNoEffect : Obligations.IgnoredBitsHaveNoEffect := by
  constructor
  · intro q q' s hsel hact hctl
    cases h : q.getLsbD 34 with
    | true =>
      rw [decode_composer_act h, decode_composer_act (hsel ▸ h)]
      refine exec_act_congr (component_congr fun k hk => ?_) s
      rw [getLsbD_reqPixel q (by omega), getLsbD_reqPixel q' (by omega), hact h k hk]
    | false =>
      obtain ⟨hvsync, hhsync⟩ := hctl h
      rw [decode_composer_ctl h, decode_composer_ctl (hsel ▸ h), hvsync, hhsync]
  · intro l r r' s hsel hlact hlctl
    cases h : r.getLsbD 10 with
    | true => rw [decode_lane_lact l h, decode_lane_lact l (hsel ▸ h), laneData_congr (hlact h)]
    | false =>
      obtain ⟨hc1, hc0⟩ := hlctl h
      rw [decode_lane_lctl l h, decode_lane_lctl l (hsel ▸ h), hc1, hc0]

/-- Settles O8. -/
theorem onlyNoInputIsRefused : Obligations.OnlyNoInputIsRefused := by
  refine fun s => ⟨step_nil, fun hne r => ?_⟩
  obtain ⟨i, rest, hin⟩ := List.exists_cons_of_ne_nil hne
  rw [step_cons hin]
  exact tick_never_refused i _ r

/-- Settles O3: a colour component is a byte of the pixel, which is the low word of the request. -/
theorem requestFieldsDecode : Obligations.RequestFieldsDecode := by
  refine ⟨fun q h => ?_, fun q => decode_composer_ctl, fun l k => decode_lane_lact l, fun l k => decode_lane_lctl l⟩
  have hbyte := extractByte_congr (x := reqPixel q) (y := q) fun k hk => getLsbD_reqPixel q hk
  exact ⟨reqPixel q, decode_composer_act h, hbyte 0 (by decide), hbyte 8 (by decide), hbyte 16 (by decide), rfl⟩

/-- Settles O4. -/
theorem knownWordsDecode : Obligations.KnownWordsDecode :=
  ⟨by decide, by decide, by decide, by decide, by decide, by decide, by decide⟩

/-- Settles O6: the tick of a request input is that request's operation, and beside a reset one of its two outcomes. -/
theorem stepRunsDecodedRequest : Obligations.StepRunsDecodedRequest :=
  fun _ _ => ⟨fun _ hin => step_cons hin, fun _ _ hin => step_cons hin, fun _ hin => step_cons hin⟩

end Sys2Proof.Machine
end

section
/-! SUPPORT. The transform of one lane, said once: counts of ones and of transitions, the eight bits of a byte, the bits of Phase 1 and its chain, the
two symbols a Phase-1 result can give and what they do to the counter, and the control codes (40_lane_encoder.md sections 1 to 6). -/

namespace Sys2Proof.Machine

/-! ### Counting ones and transitions -/

/-- The count looks at the bits it counts alone. -/
theorem onesBelow_congr {v w n : Nat} {x : BitVec v} {y : BitVec w} (h : ∀ i, i < n → x.getLsbD i = y.getLsbD i) :
    onesBelow x n = onesBelow y n := by
  induction n with
  | zero => rfl
  | succ n ih => simp only [onesBelow, h n n.lt_succ_self, ih fun i hi => h i (by omega)]

/-- Each bit is a 1 of the value or of its complement. -/
theorem onesBelow_not_add {w : Nat} (v : BitVec w) {n : Nat} (hn : n ≤ w) : onesBelow (~~~v) n + onesBelow v n = n := by
  induction n with
  | zero => rfl
  | succ n ih =>
    have hrest := ih (by omega)
    have hbit : ((~~~v).getLsbD n).toNat + (v.getLsbD n).toNat = 1 := by
      rw [BitVec.getLsbD_not, decide_eq_true (by omega : n < w), Bool.true_and]
      cases v.getLsbD n <;> rfl
    rw [onesBelow, onesBelow]
    omega

theorem popcount_not_add {w : Nat} (v : BitVec w) : popcount (~~~v) + popcount v = w := onesBelow_not_add v (Nat.le_refl w)

theorem onesBelow_eq_zero {w : Nat} {v : BitVec w} {n : Nat} (h : onesBelow v n = 0) : ∀ i, i < n → v.getLsbD i = false := by
  induction n with
  | zero => exact fun i hi => absurd hi (Nat.not_lt_zero i)
  | succ n ih =>
    simp only [onesBelow, Nat.add_eq_zero_iff, Bool.toNat_eq_zero] at h
    obtain ⟨hrest, hbit⟩ := h
    intro i hi
    rcases Nat.lt_succ_iff_lt_or_eq.1 hi with hlt | rfl
    · exact ih hrest i hlt
    · exact hbit

@[simp] theorem onesBelow_zero (w n : Nat) : onesBelow (0#w) n = 0 := by
  induction n with
  | zero => rfl
  | succ n ih => simp [onesBelow, ih]

/-- Only 0 has no ones. -/
theorem popcount_eq_zero_iff {w : Nat} {v : BitVec w} : popcount v = 0 ↔ v = 0#w := by
  constructor
  · exact fun h => BitVec.eq_of_getLsbD_eq fun i hi => by rw [onesBelow_eq_zero h i hi, BitVec.getLsbD_zero]
  · rintro rfl
    exact onesBelow_zero w w

/-- The count of transitions looks at the bits up to its last one alone. -/
theorem transitionsBelow_congr {v w n : Nat} {x : BitVec v} {y : BitVec w} (h : ∀ i, i ≤ n → x.getLsbD i = y.getLsbD i) :
    transitionsBelow x n = transitionsBelow y n := by
  induction n with
  | zero => rfl
  | succ n ih =>
    simp only [transitionsBelow, h n n.le_succ, h (n + 1) (Nat.le_refl _), ih fun i hi => h i (by omega)]

/-- Complementing keeps every transition. -/
theorem transitionsBelow_not {w : Nat} (v : BitVec w) {n : Nat} (hn : n < w) :
    transitionsBelow (~~~v) n = transitionsBelow v n := by
  induction n with
  | zero => rfl
  | succ n ih => simp [transitionsBelow, ih (by omega), hn, show n < w by omega]

/-! ### The half-disparity -/

/-- The half-disparity in terms of popcount (40_lane_encoder.md R81). -/
theorem halfDisparity_eq_popcount (v : Byte) : halfDisparity v = (popcount v : Int) - 4 := by
  have hle : popcount v ≤ 8 := onesBelow_le v 8
  simp only [halfDisparity, ones, zeros]
  omega

/-! ### A byte given by its bits -/

/-- Eight bits put together, bit 7 first. -/
theorem getLsbD_ofBool_append (f : Nat → Bool) {i : Nat} (hi : i < 8) :
    (BitVec.ofBool (f 7) ++ BitVec.ofBool (f 6) ++ BitVec.ofBool (f 5) ++ BitVec.ofBool (f 4) ++ BitVec.ofBool (f 3) ++
      BitVec.ofBool (f 2) ++ BitVec.ofBool (f 1) ++ BitVec.ofBool (f 0)).getLsbD i = f i := by
  rcases (by omega : i = 0 ∨ i = 1 ∨ i = 2 ∨ i = 3 ∨ i = 4 ∨ i = 5 ∨ i = 6 ∨ i = 7) with
    rfl | rfl | rfl | rfl | rfl | rfl | rfl | rfl <;>
    simp only [BitVec.getLsbD_append] <;> simp

/-- The bits of `px` (40_lane_encoder.md R82). -/
theorem getLsbD_prefixXor (d : Byte) {i : Nat} (hi : i < 8) : (prefixXor d).getLsbD i = prefixBit d i :=
  getLsbD_ofBool_append (prefixBit d) hi

/-- The bits of the decoded byte (40_lane_encoder.md R103). -/
theorem getLsbD_oracleDecode (out : Symbol) {i : Nat} (hi : i < 8) : (oracleDecode out).getLsbD i = oracleBit out i :=
  getLsbD_ofBool_append (oracleBit out) hi

/-! ### Phase 1 -/

/-- The low bits of the tentative intermediate (40_lane_encoder.md R84). -/
theorem getLsbD_tentative (d : Byte) {i : Nat} (hi : i < 8) : (tentative d).getLsbD i = (prefixXor d).getLsbD i := by
  simp only [tentative, BitVec.getLsbD_append, hi, if_true]

/-- Bit 8 of the tentative intermediate (40_lane_encoder.md R84). -/
theorem getLsbD_tentative_flag (d : Byte) : (tentative d).getLsbD 8 = true := by
  simp only [tentative, BitVec.getLsbD_append]
  rfl

/-- The bits that inversion flips: 8, 7, 5, 3 and 1 (40_lane_encoder.md R86). -/
def flipMask : Intermediate := 0b110101010#9

theorem getLsbD_flipMask {i : Nat} (hi : i < 9) :
    flipMask.getLsbD i = (i == 8 || i == 7 || i == 5 || i == 3 || i == 1) := by
  have hall : ∀ j : Fin 9, flipMask.getLsbD j.val =
      (j.val == 8 || j.val == 7 || j.val == 5 || j.val == 3 || j.val == 1) := by decide
  exact hall ⟨i, hi⟩

/-- Of two neighbours in the low byte, inversion flips one. -/
theorem getLsbD_flipMask_succ {i : Nat} (hi : i < 7) : flipMask.getLsbD (i + 1) = !flipMask.getLsbD i := by
  have hall : ∀ j : Fin 7, flipMask.getLsbD (j.val + 1) = !flipMask.getLsbD j.val := by decide
  exact hall ⟨i, hi⟩

/-- The bits of the Phase-1 result (40_lane_encoder.md R86). -/
theorem getLsbD_intermediate (d : Byte) (i : Nat) :
    (intermediate d).getLsbD i = ((tentative d).getLsbD i).xor (inverts d && flipMask.getLsbD i) := by
  rw [intermediate]
  cases inverts d with
  | true => exact BitVec.getLsbD_xor
  | false => exact (Bool.xor_false _).symm

/-- The inversion decision in terms of the balance (40_lane_encoder.md R85). -/
theorem inverts_iff_balance (d : Byte) :
    inverts d = true ↔ 0 < halfDisparity d ∨ (halfDisparity d = 0 ∧ d.getLsbD 0 = false) := by
  simp only [inverts, Bool.or_eq_true, Bool.and_eq_true, decide_eq_true_eq, Bool.not_eq_true']
  rfl

/-- The inversion decision in terms of popcount (40_lane_encoder.md R85). -/
theorem inverts_iff_rule (d : Byte) : inverts d = true ↔ InvRule d := by
  have hpos : 0 < halfDisparity d ↔ 4 < popcount d := by rw [halfDisparity_eq_popcount]; omega
  have hzero : halfDisparity d = 0 ↔ popcount d = 4 := by rw [halfDisparity_eq_popcount]; omega
  rw [inverts_iff_balance, hpos, hzero, InvRule]

/-- One link of the chain: a bit of the Phase-1 result from the one before it (40_lane_encoder.md R82, R86). -/
theorem intermediate_succ (d : Byte) {i : Nat} (hi : i < 7) :
    (intermediate d).getLsbD (i + 1) = (((intermediate d).getLsbD i).xor (d.getLsbD (i + 1))).xor (inverts d) := by
  rw [getLsbD_intermediate, getLsbD_intermediate, getLsbD_tentative d (by omega), getLsbD_tentative d (by omega),
    getLsbD_prefixXor d (by omega), getLsbD_prefixXor d (by omega), prefixBit, getLsbD_flipMask_succ hi]
  cases prefixBit d i <;> cases d.getLsbD (i + 1) <;> cases inverts d <;> cases flipMask.getLsbD i <;> rfl

theorem intermediate_zero (d : Byte) : (intermediate d).getLsbD 0 = d.getLsbD 0 := by
  have hmask : flipMask.getLsbD 0 = false := by decide
  rw [getLsbD_intermediate, getLsbD_tentative d (by decide), getLsbD_prefixXor d (by decide), hmask, Bool.and_false,
    Bool.xor_false, prefixBit]

/-- The flag is 1 exactly when Phase 1 does not invert (40_lane_encoder.md R86). -/
theorem usedXor_intermediate (d : Byte) : usedXor (intermediate d) = !inverts d := by
  have hmask : flipMask.getLsbD 8 = true := by decide
  rw [usedXor, getLsbD_intermediate, getLsbD_tentative_flag, hmask, Bool.and_true, Bool.true_xor]

/-- The Phase-1 result meets the rule (40_lane_encoder.md R82, R86). -/
theorem phase1Rule_intermediate (d : Byte) : Phase1Rule d (intermediate d) := by
  have hflag : (intermediate d).getLsbD 8 = !inverts d := usedXor_intermediate d
  refine ⟨intermediate_zero d, fun hinv => ?_, fun hinv => ?_⟩
  · have h : inverts d = true := (inverts_iff_rule d).2 hinv
    exact ⟨by rw [hflag, h]; rfl, fun i hi => by rw [intermediate_succ d hi, h, Bool.xor_true]⟩
  · have h : inverts d = false := Bool.eq_false_iff.2 fun g => hinv ((inverts_iff_rule d).1 g)
    exact ⟨by rw [hflag, h]; rfl, fun i hi => by rw [intermediate_succ d hi, h, Bool.xor_false]⟩

/-- The rule determines the Phase-1 result: bit 0 and each link of the chain fix the next bit. -/
theorem Phase1Rule.unique {d : Byte} {q q' : Intermediate} (h : Phase1Rule d q) (h' : Phase1Rule d q') : q = q' := by
  obtain ⟨hzero, hinv, hnot⟩ := h
  obtain ⟨hzero', hinv', hnot'⟩ := h'
  have hlinks : q.getLsbD 8 = q'.getLsbD 8 ∧
      ∀ i, i < 7 → q.getLsbD i = q'.getLsbD i → q.getLsbD (i + 1) = q'.getLsbD (i + 1) := by
    by_cases h : InvRule d
    · obtain ⟨hflag, hchain⟩ := hinv h
      obtain ⟨hflag', hchain'⟩ := hinv' h
      exact ⟨hflag.trans hflag'.symm, fun i hi hbit => by rw [hchain i hi, hchain' i hi, hbit]⟩
    · obtain ⟨hflag, hchain⟩ := hnot h
      obtain ⟨hflag', hchain'⟩ := hnot' h
      exact ⟨hflag.trans hflag'.symm, fun i hi hbit => by rw [hchain i hi, hchain' i hi, hbit]⟩
  obtain ⟨hflag, hchain⟩ := hlinks
  have hlow : ∀ i, i < 8 → q.getLsbD i = q'.getLsbD i := by
    intro i hi
    induction i with
    | zero => rw [hzero, hzero']
    | succ i ih => exact hchain i (by omega) (ih (by omega))
  refine BitVec.eq_of_getLsbD_eq fun i hi => ?_
  rcases Nat.lt_succ_iff_lt_or_eq.1 hi with hlt | rfl
  · exact hlow i hlt
  · exact hflag

theorem getLsbD_lower8 (q : Intermediate) {i : Nat} (hi : i < 8) : (lower8 q).getLsbD i = q.getLsbD i := by
  simp [lower8, hi]

/-- The data disparity in terms of popcount (40_lane_encoder.md R81, R87). -/
theorem dataDisparity_eq_popcount (q : Intermediate) : dataDisparity q = (popcount (lower8 q) : Int) - 4 :=
  halfDisparity_eq_popcount (lower8 q)

/-- Where two neighbours of the Phase-1 byte differ (40_lane_encoder.md R82, R86). -/
theorem lower8_intermediate_link (d : Byte) {i : Nat} (hi : i < 7) :
    ((lower8 (intermediate d)).getLsbD i).xor ((lower8 (intermediate d)).getLsbD (i + 1)) =
      (d.getLsbD (i + 1)).xor (inverts d) := by
  rw [getLsbD_lower8 _ (by omega), getLsbD_lower8 _ (by omega), intermediate_succ d hi, Bool.xor_assoc, ← Bool.xor_assoc,
    Bool.xor_self, Bool.false_xor]

/-- Where Phase 1 does not invert, each transition of its byte is a 1 of the input above bit 0. -/
theorem transitionsBelow_xorChain (d : Byte) (h : inverts d = false) {n : Nat} (hn : n ≤ 7) :
    transitionsBelow (lower8 (intermediate d)) n + (d.getLsbD 0).toNat = onesBelow d (n + 1) := by
  induction n with
  | zero => simp only [transitionsBelow, onesBelow]
  | succ n ih =>
    have hrest := ih (by omega)
    rw [transitionsBelow, lower8_intermediate_link d (by omega), h, Bool.xor_false, onesBelow]
    omega

/-- Where Phase 1 inverts, each transition of its byte is a 0 of the input above bit 0. -/
theorem transitionsBelow_xnorChain (d : Byte) (h : inverts d = true) {n : Nat} (hn : n ≤ 7) :
    transitionsBelow (lower8 (intermediate d)) n + onesBelow d (n + 1) = n + (d.getLsbD 0).toNat := by
  induction n with
  | zero => simp only [transitionsBelow, onesBelow, Nat.zero_add]
  | succ n ih =>
    have hrest := ih (by omega)
    have hone : (!d.getLsbD (n + 1)).toNat + (d.getLsbD (n + 1)).toNat = 1 := by cases d.getLsbD (n + 1) <;> rfl
    rw [transitionsBelow, lower8_intermediate_link d (by omega), h, Bool.xor_true, onesBelow]
    omega

/-- The Phase-1 byte has at most 3 transitions: the inversion decision picks the chain that has fewer (40_lane_encoder.md R85, R99). -/
theorem transitions_lower8_intermediate_le (d : Byte) : transitions (lower8 (intermediate d)) ≤ 3 := by
  have hrule := inverts_iff_rule d
  have hones : popcount d = onesBelow d (7 + 1) := rfl
  rw [InvRule, hones] at hrule
  have hseven : transitions (lower8 (intermediate d)) = transitionsBelow (lower8 (intermediate d)) 7 := rfl
  cases h : inverts d with
  | false =>
    have hcount := transitionsBelow_xorChain d h (Nat.le_refl 7)
    cases hbit : d.getLsbD 0 <;> simp [h, hbit, -BitVec.getLsbD_eq_getElem] at hrule hcount <;> omega
  | true =>
    have hcount := transitionsBelow_xnorChain d h (Nat.le_refl 7)
    cases hbit : d.getLsbD 0 <;> simp [h, hbit, -BitVec.getLsbD_eq_getElem] at hrule hcount <;> omega

/-! ### The symbol of a Phase-1 result -/

theorem symbolOf_bit9 (b9 b8 : Bool) (low : Byte) : (symbolOf b9 b8 low).getLsbD 9 = b9 := by
  simp only [symbolOf, BitVec.getLsbD_append]
  simp

theorem symbolOf_bit8 (b9 b8 : Bool) (low : Byte) : (symbolOf b9 b8 low).getLsbD 8 = b8 := by
  simp only [symbolOf, BitVec.getLsbD_append]
  simp

theorem getLsbD_symbolOf (b9 b8 : Bool) (low : Byte) {i : Nat} (hi : i < 8) :
    (symbolOf b9 b8 low).getLsbD i = low.getLsbD i := by
  simp only [symbolOf, BitVec.getLsbD_append, hi, if_true]

@[simp] theorem symbolOf_low (b9 b8 : Bool) (low : Byte) : (symbolOf b9 b8 low).extractLsb' 0 8 = low :=
  BitVec.eq_of_getLsbD_eq fun i hi => by simp [hi, getLsbD_symbolOf]

theorem popcount_symbolOf (b9 b8 : Bool) (low : Byte) :
    popcount (symbolOf b9 b8 low) = popcount low + b8.toNat + b9.toNat := by
  have hlow : onesBelow (symbolOf b9 b8 low) 8 = popcount low := onesBelow_congr fun i hi => getLsbD_symbolOf b9 b8 low hi
  rw [popcount, onesBelow, onesBelow, hlow, symbolOf_bit8, symbolOf_bit9]

/-- The two bits above the byte add at most two transitions. -/
theorem transitions_symbolOf_le (b9 b8 : Bool) (low : Byte) : transitions (symbolOf b9 b8 low) ≤ transitions low + 2 := by
  have hlow : transitionsBelow (symbolOf b9 b8 low) 7 = transitions low :=
    transitionsBelow_congr fun i hi => getLsbD_symbolOf b9 b8 low (by omega)
  have h8 := Bool.toNat_le (((symbolOf b9 b8 low).getLsbD 7).xor ((symbolOf b9 b8 low).getLsbD (7 + 1)))
  have h9 := Bool.toNat_le (((symbolOf b9 b8 low).getLsbD 8).xor ((symbolOf b9 b8 low).getLsbD (8 + 1)))
  rw [transitions, transitionsBelow, transitionsBelow, hlow]
  omega

/-- The symbol of a Phase-1 result with its byte complemented or not: bit 9 says which (40_lane_encoder.md R95). -/
def symbolOfResult (q : Intermediate) (complemented : Bool) : Symbol :=
  symbolOf complemented (usedXor q) (if complemented then ~~~lower8 q else lower8 q)

/-- Whether Phase 2 complements the byte (40_lane_encoder.md R89, R90, R91). -/
def complements (q : Intermediate) (c : Int) : Bool :=
  match branch c (dataDisparity q) with
  | .zero => !usedXor q
  | .sameSign => true
  | .oppositeSign => false

/-- The symbol of Phase 2 is one of the two (40_lane_encoder.md R95). -/
theorem phase2_symbol (q : Intermediate) (c : Int) : (phase2 q c).1 = symbolOfResult q (complements q c) := by
  cases h : branch c (dataDisparity q) with
  | zero => cases hflag : usedXor q <;> simp [phase2, complements, symbolOfResult, h, hflag]
  | sameSign => simp [phase2, complements, symbolOfResult, h]
  | oppositeSign => simp [phase2, complements, symbolOfResult, h]

theorem encodeActive_symbol (d : Byte) (c : Int) :
    (encodeActive d c).1 = symbolOfResult (intermediate d) (complements (intermediate d) c) := phase2_symbol _ c

/-- The ones of the symbol beyond five, in terms of the data disparity. -/
theorem popcount_symbolOfResult (q : Intermediate) (b : Bool) :
    (popcount (symbolOfResult q b) : Int) - 5 =
      (if b then -dataDisparity q else dataDisparity q - 1) + (if usedXor q then 1 else 0) := by
  have hnot : popcount (~~~lower8 q) + popcount (lower8 q) = 8 := popcount_not_add (lower8 q)
  rw [symbolOfResult, popcount_symbolOf, dataDisparity_eq_popcount]
  cases b <;> cases usedXor q <;> simp <;> omega

/-- Phase 2 moves the counter by the ones of its symbol minus five (40_lane_encoder.md R89 to R91, R95). -/
theorem phase2_counter (q : Intermediate) (c : Int) : (phase2 q c).2 = c + ((popcount (phase2 q c).1 : Int) - 5) := by
  rw [phase2_symbol, popcount_symbolOfResult]
  cases h : branch c (dataDisparity q) with
  | zero => cases hflag : usedXor q <;> simp [phase2, complements, h, hflag]
  | sameSign =>
    simp only [phase2, complements, h, if_true]
    omega
  | oppositeSign =>
    simp only [phase2, complements, h, Bool.false_eq_true, if_false]
    cases usedXor q <;> simp only [Bool.false_eq_true, if_true, if_false] <;> omega

theorem encodeActive_counter (d : Byte) (c : Int) :
    (encodeActive d c).2 = c + ((popcount (encodeActive d c).1 : Int) - 5) := phase2_counter _ c

/-- Phase 2 meets the rules (40_lane_encoder.md R88 to R91). -/
theorem phase2Rule_phase2 (q : Intermediate) (c : Int) : Phase2Rule q c (phase2 q c).1 (phase2 q c).2 := by
  have hx : ((popcount (q.extractLsb' 0 8) : Int) - 4) = dataDisparity q := (dataDisparity_eq_popcount q).symm
  simp only [Phase2Rule, hx]
  refine ⟨fun h => ?_, fun h => ?_, fun h => ?_⟩
  · have hb : branch c (dataDisparity q) = .zero := if_pos h
    rw [phase2, hb]
    exact ⟨symbolOf_bit9 _ _ _, symbolOf_bit8 _ _ _, symbolOf_low _ _ _, rfl⟩
  · have hb : branch c (dataDisparity q) = .sameSign := by rw [branch, if_neg (by omega), if_pos h]
    rw [phase2, hb]
    exact ⟨symbolOf_bit9 _ _ _, symbolOf_bit8 _ _ _, symbolOf_low _ _ _, rfl⟩
  · have hb : branch c (dataDisparity q) = .oppositeSign := by rw [branch, if_neg (by omega), if_neg (by omega)]
    rw [phase2, hb]
    exact ⟨symbolOf_bit9 _ _ _, symbolOf_bit8 _ _ _, symbolOf_low _ _ _, rfl⟩

/-! ### How the symbol depends on the counter -/

/-- Phase 2 complements or not by the counter's sign alone, and not at all by the counter where the data disparity is 0
(40_lane_encoder.md R88, R98). -/
theorem complements_congr {q : Intermediate} {c c' : Int}
    (h : (c < 0 ∧ c' < 0) ∨ (c = 0 ∧ c' = 0) ∨ (0 < c ∧ 0 < c') ∨ dataDisparity q = 0) :
    complements q c = complements q c' := by
  have hbranch : branch c (dataDisparity q) = branch c' (dataDisparity q) := by
    simp only [branch]
    rcases h with ⟨h, h'⟩ | ⟨h, h'⟩ | ⟨h, h'⟩ | h
    · simp [h, h', h.ne, h'.ne, h.not_gt, h'.not_gt]
    · rw [h, h']
    · simp [h, h', h.ne', h'.ne', h.not_gt, h'.not_gt]
    · simp [h]
  rw [complements, complements, hbranch]

theorem complements_of_dataDisparity_zero {q : Intermediate} (h : dataDisparity q = 0) (c : Int) :
    complements q c = !usedXor q := by
  simp [complements, branch, h]

/-- With a data disparity other than 0, the counters 1 and -1 take one branch each (40_lane_encoder.md R88). -/
theorem exists_complements {q : Intermediate} (h : dataDisparity q ≠ 0) (b : Bool) :
    ∃ c : Int, (-4 ≤ c ∧ c ≤ 4) ∧ complements q c = b := by
  rcases lt_or_gt_of_ne h with hneg | hpos
  · cases b with
    | true => exact ⟨-1, by omega, by simp [complements, branch, h, hneg]⟩
    | false => exact ⟨1, by omega, by simp [complements, branch, h, hneg, hneg.not_gt]⟩
  · cases b with
    | true => exact ⟨1, by omega, by simp [complements, branch, h, hpos]⟩
    | false => exact ⟨-1, by omega, by simp [complements, branch, h, hpos, hpos.not_gt]⟩

/-! ### The inverse transform -/

theorem symbolOfResult_bit9 (q : Intermediate) (b : Bool) : (symbolOfResult q b).getLsbD 9 = b := symbolOf_bit9 _ _ _

theorem symbolOfResult_bit8 (q : Intermediate) (b : Bool) : (symbolOfResult q b).getLsbD 8 = usedXor q :=
  symbolOf_bit8 _ _ _

theorem symbolOfResult_low (q : Intermediate) (b : Bool) :
    (symbolOfResult q b).extractLsb' 0 8 = if b then ~~~lower8 q else lower8 q := symbolOf_low _ _ _

/-- The low byte is complemented back as bit 9 says. -/
theorem oracleLow_symbolOfResult (q : Intermediate) (b : Bool) : oracleLow (symbolOfResult q b) = lower8 q := by
  rw [oracleLow, symbolOfResult_bit9, symbolOfResult_low]
  cases b <;> simp

/-- Either symbol of an input decodes to the input: each input bit is the link between two neighbours of the chain
(40_lane_encoder.md R103). -/
theorem oracleDecode_symbolOfResult (d : Byte) (b : Bool) : oracleDecode (symbolOfResult (intermediate d) b) = d := by
  refine BitVec.eq_of_getLsbD_eq fun i hi => ?_
  rw [getLsbD_oracleDecode _ hi]
  cases i with
  | zero => rw [oracleBit, oracleLow_symbolOfResult, getLsbD_lower8 _ hi, intermediate_zero]
  | succ i =>
    rw [oracleBit, oracleLow_symbolOfResult, symbolOfResult_bit8, usedXor_intermediate, Bool.xor_comm,
      lower8_intermediate_link d (by omega)]
    cases inverts d <;> simp

theorem oracleDecode_encodeActive (d : Byte) (c : Int) : oracleDecode (encodeActive d c).1 = d := by
  rw [encodeActive_symbol, oracleDecode_symbolOfResult]

/-- Symbols are the same only for the same input and the same choice of complement. -/
theorem symbolOfResult_inj {d d' : Byte} {b b' : Bool}
    (h : symbolOfResult (intermediate d) b = symbolOfResult (intermediate d') b') : d = d' ∧ b = b' := by
  constructor
  · rw [← oracleDecode_symbolOfResult d b, h, oracleDecode_symbolOfResult]
  · rw [← symbolOfResult_bit9 (intermediate d) b, h, symbolOfResult_bit9]

/-! ### Data symbols and control codes -/

/-- A data symbol has at most 5 transitions (40_lane_encoder.md R99). -/
theorem transitions_encodeActive_le (d : Byte) (c : Int) : transitions (encodeActive d c).1 ≤ 5 := by
  rw [encodeActive_symbol]
  generalize complements (intermediate d) c = b
  have hbyte := transitions_lower8_intermediate_le d
  have hsame : transitions (if b then ~~~lower8 (intermediate d) else lower8 (intermediate d)) =
      transitions (lower8 (intermediate d)) := by
    cases b with
    | true => exact transitionsBelow_not _ (by decide)
    | false => rfl
  have hsymbol := transitions_symbolOf_le b (usedXor (intermediate d))
    (if b then ~~~lower8 (intermediate d) else lower8 (intermediate d))
  rw [symbolOfResult]
  omega

/-- A control code has 7 or 8 transitions (40_lane_encoder.md R99). -/
theorem transitions_of_isControlCode {out : Symbol} (h : isControlCode out = true) :
    transitions out = 7 ∨ transitions out = 8 := by
  simp only [isControlCode, Bool.or_eq_true, beq_iff_eq] at h
  rcases h with ((rfl | rfl) | rfl) | rfl <;> decide

/-- No data symbol is a control code: it has too few transitions (40_lane_encoder.md R99). -/
theorem isControlCode_encodeActive (d : Byte) (c : Int) : isControlCode (encodeActive d c).1 = false := by
  refine Bool.eq_false_iff.2 fun h => ?_
  have hfew := transitions_encodeActive_le d c
  have hmany := transitions_of_isControlCode h
  omega

theorem isControlCode_encodeControl (c0 c1 : Bool) : isControlCode (encodeControl c0 c1) = true := by
  cases c0 <;> cases c1 <;> rfl

/-- Each lane's field of a CTL's word is a control code (41_composer.md R125). -/
theorem isControlCode_wordField_ctlWord (l : Lane) (hs vs : Bool) : isControlCode (wordField l (ctlWord hs vs)) = true := by
  obtain ⟨ha, hb, hc⟩ := wordField_pack (encodeControl (ctlC0 .a hs) (ctlC1 .a vs))
    (encodeControl (ctlC0 .b hs) (ctlC1 .b vs)) (encodeControl (ctlC0 .c hs) (ctlC1 .c vs))
  cases l with
  | a => rw [ctlWord, ha]; exact isControlCode_encodeControl _ _
  | b => rw [ctlWord, hb]; exact isControlCode_encodeControl _ _
  | c => rw [ctlWord, hc]; exact isControlCode_encodeControl _ _

/-- The account of a lane goes on as its counter does over a data symbol (10_state.md R22). -/
theorem accountSymbol_encodeActive (d : Byte) (c : Int) : accountSymbol c (encodeActive d c).1 = (encodeActive d c).2 := by
  rw [accountSymbol, isControlCode_encodeActive, encodeActive_counter]
  exact if_neg Bool.false_ne_true

theorem accountSymbol_of_isControlCode {out : Symbol} (h : isControlCode out = true) (acc : Int) :
    accountSymbol acc out = 0 := if_pos h

/-! ### Writing back, and the symbol of a LACT in the log -/

theorem Counters.set_set (k : Counters) (l : Lane) (x y : Cell) : (k.set l x).set l y = k.set l y := by
  cases l <;> rfl

/-- A cell written again after a delivery holds the later value alone. -/
theorem State.setCell_deliver_setCell (s : State) (l : Lane) (x y : Cell) (e : Event) :
    ((s.setCell l x).deliver e).setCell l y = (s.setCell l y).deliver e := by
  simp only [State.setCell, State.deliver, Counters.set_set]

/-- A LACT that completes, with the symbol it handed over. -/
theorem exec_lact_next_symbol {l : Lane} {d : Byte} {s t : State} {out : Symbol} (h : exec (.lact l d) s = .next t)
    (hlog : t.log = s.log ++ [.symbol l out]) :
    ∃ c, readCounter s.cnt l = .ok c ∧ out = (encodeActive d c).1 ∧
      t = (s.setCell l (.val (encodeActive d c).2)).deliver (.symbol l out) := by
  obtain ⟨c, hc, rfl⟩ := exec_lact_next h
  obtain rfl : (encodeActive d c).1 = out := by simpa using hlog
  exact ⟨c, hc, rfl, rfl⟩

/-- Every input in every in-range counter is encoded at some state. -/
theorem exists_exec_lact (l : Lane) (d : Byte) {c : Int} (hc : -4 ≤ c ∧ c ≤ 4) :
    ∃ s t, exec (.lact l d) s = .next t ∧ t.log = s.log ++ [.symbol l (encodeActive d c).1] := by
  have hread : readCounter (State.reset.setCell l (.val c)).cnt l = .ok c := readCounter_ok_iff.2 ⟨by simp, hc⟩
  exact ⟨_, _, exec_lact_of_ok d hread, rfl⟩

/-! ### The symbols of an input -/

/-- The distinct symbols that LACT gives for an input (40_lane_encoder.md R98). -/
def lactSymbols (d : Byte) : List Symbol :=
  if dataDisparity (intermediate d) = 0 then [symbolOfResult (intermediate d) (!usedXor (intermediate d))]
  else [symbolOfResult (intermediate d) false, symbolOfResult (intermediate d) true]

theorem exists_of_mem_lactSymbols {d : Byte} {out : Symbol} (h : out ∈ lactSymbols d) :
    ∃ b, out = symbolOfResult (intermediate d) b := by
  simp only [lactSymbols] at h
  split at h
  · exact ⟨_, List.mem_singleton.1 h⟩
  · rcases List.mem_pair.1 h with rfl | rfl
    · exact ⟨false, rfl⟩
    · exact ⟨true, rfl⟩

/-- They are the symbols over the counters in [-4, 4]. -/
theorem mem_lactSymbols_iff {d : Byte} {out : Symbol} :
    out ∈ lactSymbols d ↔ ∃ c : Int, (-4 ≤ c ∧ c ≤ 4) ∧ out = (encodeActive d c).1 := by
  simp only [lactSymbols, encodeActive_symbol]
  by_cases hzero : dataDisparity (intermediate d) = 0
  · simp only [hzero, if_true, List.mem_singleton, complements_of_dataDisparity_zero hzero]
    exact ⟨fun h => ⟨0, by omega, h⟩, fun ⟨_, _, h⟩ => h⟩
  · simp only [hzero, if_false, List.mem_pair]
    have hreached : ∀ b, ∃ c : Int, (-4 ≤ c ∧ c ≤ 4) ∧
        symbolOfResult (intermediate d) b = symbolOfResult (intermediate d) (complements (intermediate d) c) :=
      fun b => (exists_complements hzero b).imp fun _ ⟨hc, hb⟩ => ⟨hc, by rw [hb]⟩
    constructor
    · rintro (rfl | rfl)
      · exact hreached false
      · exact hreached true
    · rintro ⟨c, _, rfl⟩
      cases complements (intermediate d) c with
      | false => exact .inl rfl
      | true => exact .inr rfl

theorem nodup_lactSymbols (d : Byte) : (lactSymbols d).Nodup := by
  simp only [lactSymbols]
  split
  · exact List.nodup_singleton _
  · refine List.nodup_cons.2 ⟨fun h => ?_, List.nodup_singleton _⟩
    exact Bool.false_ne_true (symbolOfResult_inj (List.mem_singleton.1 h)).2

theorem disjoint_lactSymbols {d d' : Byte} (h : d ≠ d') : (lactSymbols d).Disjoint (lactSymbols d') := by
  intro out hd hd'
  obtain ⟨b, rfl⟩ := exists_of_mem_lactSymbols hd
  obtain ⟨b', hb'⟩ := exists_of_mem_lactSymbols hd'
  exact h (symbolOfResult_inj hb').1

end Sys2Proof.Machine
end

section
/-! SUPPORT. The meaning of the counters (10_state.md R22) under the operations, the counter values that one LACT reaches from 0, and the list of all
symbols of LACT. -/

namespace Sys2Proof.Machine

/-! ### The counter's meaning -/

/-- Counters at 0 mean accounts at 0. -/
theorem State.CountersMeanDisparity.of_zero {t : State} (hcnt : t.cnt = .zero) (hlog : ∀ l, account l t.log = 0) :
    t.CountersMeanDisparity := by
  intro l v hv
  rw [hcnt, Counters.get_zero] at hv
  cases hv
  exact (hlog l).symm

/-- A symbol of one lane keeps the meaning of every counter, if that lane's counter follows the account. -/
theorem State.CountersMeanDisparity.symbol {s : State} (hs : s.CountersMeanDisparity) {l : Lane} {out : Symbol} {c : Int}
    (hc : accountSymbol (account l s.log) out = c) :
    ((s.setCell l (.val c)).deliver (.symbol l out)).CountersMeanDisparity := by
  intro m v hv
  simp only [State.deliver_cnt, State.setCell_cnt] at hv
  simp only [State.deliver_log, State.setCell_log, account_append, accountEvent]
  by_cases hm : m = l
  · subst hm
    rw [Counters.get_set_same] at hv
    cases hv
    rw [if_pos rfl, hc]
  · rw [Counters.get_set_other s.cnt _ hm] at hv
    rw [if_neg (Ne.symm hm)]
    exact hs m v hv

/-- Every operation keeps the counters' meaning (10_state.md R22). -/
theorem exec_keeps_meaning {i : Instr} {s t : State} (hs : s.CountersMeanDisparity) (h : exec i s = .next t) :
    t.CountersMeanDisparity := by
  cases i with
  | act p =>
    obtain ⟨w, hlog, hlanes⟩ := exec_act_lanes h
    intro l v hv
    obtain ⟨c, hc, hcnt, hfield⟩ := hlanes l
    obtain ⟨hcell, _⟩ := readCounter_ok_iff.1 hc
    rw [hcnt] at hv
    cases hv
    rw [hlog, account_append, accountEvent, hfield, ← hs l c hcell, accountSymbol_encodeActive]
  | ctl hsync vsync =>
    rw [exec_ctl] at h
    cases h
    refine .of_zero rfl fun l => ?_
    rw [State.deliver_log, account_append]
    exact accountSymbol_of_isControlCode (isControlCode_wordField_ctlWord l hsync vsync) _
  | lact l d =>
    obtain ⟨c, hc, rfl⟩ := exec_lact_next h
    obtain ⟨hcell, _⟩ := readCounter_ok_iff.1 hc
    exact hs.symbol (by rw [← hs l c hcell, accountSymbol_encodeActive])
  | lctl l c0 c1 =>
    rw [exec_lctl] at h
    cases h
    exact hs.symbol (accountSymbol_of_isControlCode (isControlCode_encodeControl c0 c1) _)

/-! ### The nine counter values -/

/-- An input that moves the counter from 0 to k - 4 (40_lane_encoder.md R93). -/
def inputReaching (k : Fin 9) : Byte :=
  match k with
  | 0 => 0
  | 1 => 3
  | 2 => 5
  | 3 => 9
  | 4 => 16
  | 5 => 8
  | 6 => 4
  | 7 => 2
  | 8 => 1

theorem encodeActive_inputReaching : ∀ k : Fin 9, (encodeActive (inputReaching k) 0).2 = (k.val : Int) - 4 := by decide

/-! ### All symbols of LACT -/

/-- The symbols of every input, input by input (40_lane_encoder.md R99). -/
def allLactSymbols : List Symbol := (List.range 256).flatMap fun n => lactSymbols (BitVec.ofNat 8 n)

theorem mem_allLactSymbols_iff {out : Symbol} : out ∈ allLactSymbols ↔ ∃ d, out ∈ lactSymbols d := by
  simp only [allLactSymbols, List.mem_flatMap, List.mem_range]
  constructor
  · rintro ⟨n, _, h⟩
    exact ⟨_, h⟩
  · rintro ⟨d, h⟩
    exact ⟨d.toNat, d.isLt, by rwa [BitVec.ofNat_toNat, BitVec.setWidth_eq]⟩

/-- Inputs share no symbol, since each symbol decodes to its input. -/
theorem nodup_allLactSymbols : allLactSymbols.Nodup := by
  refine List.nodup_flatMap.2 ⟨fun n _ => nodup_lactSymbols _, List.nodup_range.pairwise_of_forall_ne ?_⟩
  intro n hn m hm hne
  refine disjoint_lactSymbols fun h => hne ?_
  have htoNat := congrArg BitVec.toNat h
  rw [List.mem_range] at hn hm
  rwa [BitVec.toNat_ofNat, BitVec.toNat_ofNat, Nat.mod_eq_of_lt hn, Nat.mod_eq_of_lt hm] at htoNat

/-- 52 inputs have a Phase-1 byte with as many ones as zeros: counted over all 256 (40_lane_encoder.md R98). -/
theorem length_zeroDisparityInputs :
    ((List.range 256).filter fun n => dataDisparity (intermediate (BitVec.ofNat 8 n)) = 0).length = 52 := by rfl

theorem length_lactSymbols (d : Byte) :
    (lactSymbols d).length = if dataDisparity (intermediate d) = 0 then 1 else 2 := by
  rw [lactSymbols]
  split <;> rfl

/-- A list with one thing for each member that meets p and two for each other. -/
theorem length_flatMap_one_or_two {α β : Type} (p : α → Prop) [DecidablePred p] (f : α → List β)
    (hf : ∀ x, (f x).length = if p x then 1 else 2) (xs : List α) :
    (xs.flatMap f).length + (xs.filter p).length = 2 * xs.length := by
  induction xs with
  | nil => rfl
  | cons x xs ih =>
    have hx := hf x
    by_cases h : p x
    · rw [if_pos h] at hx
      simp only [List.flatMap_cons, List.length_append, List.filter_cons, h, decide_true, if_true, List.length_cons, hx]
      omega
    · rw [if_neg h] at hx
      simp only [List.flatMap_cons, List.length_append, List.filter_cons, h, decide_false, Bool.false_eq_true, if_false,
        List.length_cons, hx]
      omega

/-- 52 inputs have one symbol, the other 204 have two (40_lane_encoder.md R98, R99). -/
theorem length_allLactSymbols : allLactSymbols.length = 460 := by
  have hcount := length_flatMap_one_or_two (fun n => dataDisparity (intermediate (BitVec.ofNat 8 n)) = 0)
    (fun n => lactSymbols (BitVec.ofNat 8 n)) (fun n => length_lactSymbols _) (List.range 256)
  rw [length_zeroDisparityInputs, List.length_range] at hcount
  rw [allLactSymbols]
  omega

end Sys2Proof.Machine
end

section
/-! PROOFS. The statements about 40_lane_encoder.md: the counter's meaning, the two phases of LACT, its symbols, and the control codes. -/

namespace Sys2Proof.Machine

/-- Settles O40: a reset or a control code sets counter and account to 0, and a data symbol moves both by its ones minus five. -/
theorem stepKeepsCounterMeaning : Obligations.StepKeepsCounterMeaning := by
  intro s t hs h
  obtain ⟨i, rest, _, ⟨_, rfl⟩ | ⟨q, _, hq⟩ | ⟨q, _, rfl | ⟨u, _, rfl⟩⟩ | ⟨l, k, _, hk⟩⟩ := step_cases h
  · exact .of_zero rfl fun l => account_append l _ _
  · exact exec_keeps_meaning (s := { s with input := rest }) hs hq
  · exact .of_zero rfl fun l => account_append l _ _
  · exact .of_zero rfl fun l => account_append l _ _
  · exact exec_keeps_meaning (s := { s with input := rest }) hs hk

/-- Settles O15. -/
theorem lactFollowsPhaseRules : Obligations.LactFollowsPhaseRules := by
  intro l d s c hcell hlow hhigh
  exact ⟨intermediate d, (encodeActive d c).1, (encodeActive d c).2, phase1Rule_intermediate d,
    phase2Rule_phase2 (intermediate d) c, exec_lact_of_ok d (readCounter_ok_iff.2 ⟨hcell, hlow, hhigh⟩)⟩

/-- Settles O17: Phase 2 keeps the bound, and nine inputs reach the nine values. -/
theorem lactKeepsCounterBound : Obligations.LactKeepsCounterBound := by
  constructor
  · intro l d s hready
    obtain ⟨c, hc⟩ := ready_iff_reads.1 hready
    refine ⟨_, exec_lact_of_ok d hc, ?_⟩
    rw [State.deliver_cnt, State.setCell_cnt, Counters.get_set_same]
    exact ready_encodeActive_of_reads d hc
  · intro l s hcell v hlow hhigh
    obtain ⟨k, rfl⟩ := counter_eq_offset hlow hhigh
    refine ⟨inputReaching k, _, exec_lact_of_ok _ (readCounter_ok_iff.2 ⟨hcell, by decide⟩), ?_⟩
    rw [State.deliver_cnt, State.setCell_cnt, Counters.get_set_same, encodeActive_inputReaching]

/-- Settles O18: the symbol is that of the Phase-1 result with its byte complemented or not, and no byte is its own complement. -/
theorem lactSymbolFields : Obligations.LactSymbolFields := by
  intro l d s t c c' out h hcell hcell' hlog
  obtain ⟨c, hc, rfl, rfl⟩ := exec_lact_next_symbol h hlog
  obtain ⟨hcell₀, _⟩ := readCounter_ok_iff.1 hc
  obtain rfl : c = _ := Cell.val.inj (hcell₀.symm.trans hcell)
  rw [State.deliver_cnt, State.setCell_cnt, Counters.get_set_same] at hcell'
  cases hcell'
  refine ⟨intermediate d, phase1Rule_intermediate d, ?_⟩
  have hmove := encodeActive_counter d c
  have hne : lower8 (intermediate d) ≠ ~~~lower8 (intermediate d) := BitVec.ne_not_self (by decide)
  rw [encodeActive_symbol] at hmove ⊢
  rw [symbolOfResult_bit8, symbolOfResult_bit9, symbolOfResult_low]
  refine ⟨rfl, ?_, ?_, by omega⟩
  · cases complements (intermediate d) c with
    | true => exact iff_of_true rfl rfl
    | false => exact iff_of_false Bool.false_ne_true hne
  · cases complements (intermediate d) c with
    | true => exact iff_of_false Bool.noConfusion hne.symm
    | false => exact iff_of_true rfl rfl

/-- Settles O19: the counter moves by the ones minus five; with the same counter, a LACT gives the same again, and LCTL and CTL read none. -/
theorem repeatedOperations : Obligations.RepeatedOperations := by
  refine ⟨fun l d s t out h hlog => ?_, fun l c0 c1 s t out h hlog => ?_, fun hs vs s t w h hlog => ?_⟩
  · obtain ⟨c, hc, rfl, rfl⟩ := exec_lact_next_symbol h hlog
    obtain ⟨hcell, _⟩ := readCounter_ok_iff.1 hc
    have hmove := encodeActive_counter d c
    rw [State.deliver_cnt, State.setCell_cnt, Counters.get_set_same, hcell, Cell.val.injEq]
    refine ⟨by omega, fun hfive => ?_⟩
    have hsame : (encodeActive d c).2 = c := by omega
    have hread : readCounter (s.cnt.set l (.val (encodeActive d c).2)) l = .ok c := by
      rw [← hc]
      exact readCounter_congr (by rw [Counters.get_set_same, hcell, hsame])
    rw [exec_lact_of_ok d hread, State.setCell_deliver_setCell]
    rfl
  · rw [exec_lctl] at h
    cases h
    obtain rfl : encodeControl c0 c1 = out := by simpa using hlog
    rw [exec_lctl, State.setCell_deliver_setCell]
    rfl
  · rw [exec_ctl] at h
    cases h
    obtain rfl : ctlWord hs vs = w := by simpa using hlog
    rfl

/-- Settles O20: the oracle decodes every symbol of LACT to its input. -/
theorem lactInputRecoverable : Obligations.LactInputRecoverable := by
  have hrecover : ∀ (l : Lane) (d : Byte) (s t : State) (out : Symbol), exec (.lact l d) s = .next t →
      t.log = s.log ++ [.symbol l out] → oracleDecode out = d := by
    intro l d s t out h hlog
    obtain ⟨c, _, rfl, _⟩ := exec_lact_next_symbol h hlog
    exact oracleDecode_encodeActive d c
  refine ⟨hrecover, fun l d d' s t t' h h' hlogs => ?_⟩
  obtain ⟨_, _, rfl⟩ := exec_lact_next h
  rw [← hrecover l d s _ _ h rfl, hrecover l d' s t' _ h' hlogs.symm]

/-- Settles O21. -/
theorem dataAndControlSymbolsDiffer : Obligations.DataAndControlSymbolsDiffer := by
  constructor
  · intro l d s t out h hlog
    obtain ⟨c, _, rfl, _⟩ := exec_lact_next_symbol h hlog
    exact ⟨isControlCode_encodeActive d c, transitions_encodeActive_le d c, intermediate d, phase1Rule_intermediate d,
      transitions_lower8_intermediate_le d⟩
  · intro l c0 c1 s t out h hlog
    rw [exec_lctl] at h
    cases h
    obtain rfl : encodeControl c0 c1 = out := by simpa using hlog
    exact ⟨isControlCode_encodeControl c0 c1, transitions_of_isControlCode (isControlCode_encodeControl c0 c1)⟩

/-- Settles O22. -/
theorem lactSymbolCount : Obligations.LactSymbolCount := by
  refine ⟨allLactSymbols, nodup_allLactSymbols, length_allLactSymbols, fun out => ?_⟩
  rw [mem_allLactSymbols_iff]
  constructor
  · rintro ⟨d, hd⟩
    obtain ⟨c, hc, rfl⟩ := mem_lactSymbols_iff.1 hd
    exact ⟨.a, d, exists_exec_lact .a d hc⟩
  · rintro ⟨l, d, s, t, h, hlog⟩
    obtain ⟨c, hc, rfl, _⟩ := exec_lact_next_symbol h hlog
    obtain ⟨_, hrange⟩ := readCounter_ok_iff.1 hc
    exact ⟨d, mem_lactSymbols_iff.2 ⟨c, hrange, rfl⟩⟩

/-- Settles O23: an input has two symbols, and the counter's sign, with the data disparity, chooses between them. -/
theorem lactSymbolDependsOnSign : Obligations.LactSymbolDependsOnSign := by
  refine ⟨?_, ?_, length_zeroDisparityInputs⟩
  · intro l d s s' t t' c c' out out' h h' hcell hcell' hlog hlog' hsign
    obtain ⟨_, hc, rfl, _⟩ := exec_lact_next_symbol h hlog
    obtain ⟨_, hc', rfl, _⟩ := exec_lact_next_symbol h' hlog'
    obtain rfl := Cell.val.inj ((readCounter_ok_iff.1 hc).1.symm.trans hcell)
    obtain rfl := Cell.val.inj ((readCounter_ok_iff.1 hc').1.symm.trans hcell')
    rw [encodeActive_symbol, encodeActive_symbol, complements_congr]
    refine hsign.imp_right (Or.imp_right (Or.imp_right ?_))
    rintro ⟨q, hq, hfour⟩
    rw [dataDisparity_eq_popcount, (phase1Rule_intermediate d).unique hq, lower8, hfour]
    rfl
  · intro l d s s' s'' t t' t'' out out' out'' h h' h'' hlog hlog' hlog''
    obtain ⟨c, _, rfl, _⟩ := exec_lact_next_symbol h hlog
    obtain ⟨c', _, rfl, _⟩ := exec_lact_next_symbol h' hlog'
    obtain ⟨c'', _, rfl, _⟩ := exec_lact_next_symbol h'' hlog''
    simp only [encodeActive_symbol]
    have htwo : ∀ x y z : Bool, x = y ∨ x = z ∨ y = z := by decide
    exact (htwo _ _ _).imp (congrArg _) (Or.imp (congrArg _) (congrArg _))

/-- Settles O24. -/
theorem lctlGivesControlCode : Obligations.LctlGivesControlCode := by
  refine ⟨fun l k => decode_lane_lctl l, fun l c0 c1 s => ?_⟩
  rw [exec_lctl]
  cases c0 <;> cases c1 <;> rfl

/-- Settles O25. -/
theorem controlCodeTable : Obligations.ControlCodeTable :=
  ⟨by decide, by decide, by decide, by decide, by decide, by decide, by decide, by decide⟩

/-- Settles O47: it is popcount - 4, and only 0x00 has no ones and only 0xFF, its complement, eight. -/
theorem halfDisparityIsExact : Obligations.HalfDisparityIsExact := by
  intro v
  have hhd := halfDisparity_eq_popcount v
  have hnot : popcount (~~~v) + popcount v = 8 := popcount_not_add v
  obtain ⟨hlow, hhigh⟩ := halfDisparity_bounds v
  have hnone : popcount v = 0 ↔ v = 0x00 := popcount_eq_zero_iff
  have hall : popcount (~~~v) = 0 ↔ v = 0xFF := popcount_eq_zero_iff.trans BitVec.not_eq_comm
  refine ⟨?_, hhd, hlow, hhigh, ?_, ?_⟩
  · simp only [ones, zeros]
    omega
  · rw [← hnone]
    omega
  · rw [← hall]
    omega

/-- Settles O48. -/
theorem prefixXorBits : Obligations.PrefixXorBits := by
  intro d
  refine ⟨getLsbD_prefixXor d (by decide), fun i hi => ?_⟩
  rw [getLsbD_prefixXor d (by omega), getLsbD_prefixXor d (by omega), prefixBit]

/-- Settles O49. -/
theorem phaseOneResult : Obligations.PhaseOneResult := by
  refine fun d => ⟨inverts_iff_balance d, inverts_iff_rule d, phase1Rule_intermediate d, fun i hi => getLsbD_tentative d hi,
    getLsbD_tentative_flag d, fun i hi => ?_⟩
  rw [getLsbD_intermediate, getLsbD_flipMask hi]

end Sys2Proof.Machine
end

section
/-! SUPPORT. What a composer request does, said once for the machine and for the step relation of 41_composer.md R130; what the operations do from
ready counters and to the words delivered; and lane operations run one after another (R126). -/

namespace Sys2Proof.Machine

/-! ### The fields of a composite word -/

/-- A field's bits are the word's bits from its offset on (30_encoding.md R68). -/
theorem getLsbD_wordField (w : Word32) {k : Nat} (hk : k < 10) :
    (wordField .a w).getLsbD k = w.getLsbD k ∧ (wordField .b w).getLsbD k = w.getLsbD (10 + k) ∧
      (wordField .c w).getLsbD k = w.getLsbD (20 + k) := by
  simp [wordField, hk]

/-- The fields of a CTL's word are the control codes of the lanes' sync bits (41_composer.md R125). -/
theorem wordField_ctlWord (l : Lane) (hs vs : Bool) :
    wordField l (ctlWord hs vs) = encodeControl (ctlC0 l hs) (ctlC1 l vs) := by
  obtain ⟨ha, hb, hc⟩ := wordField_pack (encodeControl (ctlC0 .a hs) (ctlC1 .a vs))
    (encodeControl (ctlC0 .b hs) (ctlC1 .b vs)) (encodeControl (ctlC0 .c hs) (ctlC1 .c vs))
  cases l with
  | a => exact ha
  | b => exact hb
  | c => exact hc

/-! ### The operations from ready counters -/

/-- A property of every cell survives the writing of a cell that has it. -/
theorem Counters.forall_get_set {P : Cell → Prop} {k : Counters} (h : ∀ m, P (k.get m)) (l : Lane) {x : Cell} (hx : P x) :
    ∀ m, P ((k.set l x).get m) := by
  intro m
  by_cases hm : m = l
  · subst hm
    rwa [Counters.get_set_same]
  · rw [Counters.get_set_other k x hm]
    exact h m

/-- From ready counters every operation completes and leaves the counters ready (40_lane_encoder.md R93, 41_composer.md R127). -/
theorem exec_of_ready (i : Instr) {s : State} (hs : s.cnt.Ready) : ∃ t, exec i s = .next t ∧ t.cnt.Ready := by
  have hreads : ∀ l, ∃ c, readCounter s.cnt l = .ok c := fun l => ready_iff_reads.1 (hs l)
  have hset : ∀ l x, x.ready = true → (s.cnt.set l x).Ready := fun l _ hx =>
    Counters.forall_get_set (P := fun y => y.ready = true) hs l hx
  cases i with
  | act p =>
    obtain ⟨ca, ha⟩ := hreads .a
    obtain ⟨cb, hb⟩ := hreads .b
    obtain ⟨cc, hc⟩ := hreads .c
    have hnext := exec_act_of_ok p ha hb hc
    exact ⟨_, hnext, exec_act_ready hnext⟩
  | ctl hsync vsync => exact ⟨_, exec_ctl hsync vsync s, Counters.ready_zero⟩
  | lact l d =>
    obtain ⟨c, hc⟩ := hreads l
    exact ⟨_, exec_lact_of_ok d hc, hset l _ (ready_encodeActive_of_reads d hc)⟩
  | lctl l c0 c1 => exact ⟨_, exec_lctl l c0 c1 s, hset l _ rfl⟩

/-- From ready counters a tick completes and leaves them ready, whatever the input and the free value are (41_composer.md R127, R130). -/
theorem tick_of_ready (i : Input) {s : State} (hs : s.cnt.Ready) : ∃ t, tick i s = .next t ∧ t.cnt.Ready := by
  cases i with
  | reset => exact ⟨_, rfl, Counters.ready_zero⟩
  | req q => exact exec_of_ready _ hs
  | lane l k => exact exec_of_ready _ hs
  | resetReq q =>
    obtain ⟨u, hu, _⟩ := exec_of_ready (decode (.composer q)) hs
    simp only [tick, hu]
    cases Config.resetReqEmits s.choice with
    | false => exact ⟨_, rfl, Counters.ready_zero⟩
    | true => exact ⟨_, rfl, Counters.ready_zero⟩

/-- An ACT faults only where some lane's counter does not read (60_exceptions.md R143). -/
theorem exec_act_fault {p : Word32} {s : State} {f : Fault} (h : exec (.act p) s = .fault f) :
    ∃ l e, readCounter s.cnt l = .error e := by
  by_contra hnone
  have hready : s.cnt.Ready := by
    intro l
    cases hl : readCounter s.cnt l with
    | ok c => exact ready_iff_reads.2 ⟨c, hl⟩
    | error e => exact absurd ⟨l, e, hl⟩ hnone
  obtain ⟨t, ht, _⟩ := exec_of_ready (.act p) hready
  rw [ht] at h
  cases h

/-! ### What a composer operation hands over -/

/-- A composer operation that completes writes ready counters and hands over one word with its two top bits 0, and does nothing else
(41_composer.md R123 to R125, R127). -/
theorem composerOperation_next {i : Instr} {s t : State}
    (hi : (∃ p, i = .act p) ∨ (∃ hs vs, i = .ctl hs vs)) (h : exec i s = .next t) :
    ∃ k w, k.Ready ∧ (w.getLsbD 31 = false ∧ w.getLsbD 30 = false) ∧ t = (s.setCounters k).deliver (.word w) := by
  rcases hi with ⟨p, rfl⟩ | ⟨hs, vs, rfl⟩
  · have hready := exec_act_ready h
    obtain ⟨ca, cb, cc, _, _, _, rfl⟩ := exec_act_next h
    exact ⟨_, _, hready, pack_top_zero _ _ _, rfl⟩
  · rw [exec_ctl] at h
    cases h
    exact ⟨_, _, Counters.ready_zero, pack_top_zero _ _ _, rfl⟩

/-- One more event keeps the top bits 0, if it is no word or a word that has them 0. -/
theorem State.WordsTopZero.append {s t : State} (hs : s.WordsTopZero) {e : Event} (hlog : t.log = s.log ++ [e])
    (he : ∀ w, e = .word w → w.getLsbD 31 = false ∧ w.getLsbD 30 = false) : t.WordsTopZero := by
  intro w hw
  rw [hlog, List.mem_append, List.mem_singleton] at hw
  rcases hw with hold | hnew
  · exact hs w hold
  · exact he w hnew.symm

/-- Every operation keeps the top bits of the words delivered 0 (41_composer.md R128). -/
theorem exec_keeps_wordsTopZero {i : Instr} {s t : State} (hs : s.WordsTopZero) (h : exec i s = .next t) :
    t.WordsTopZero := by
  have hcomposer : ((∃ p, i = .act p) ∨ (∃ hs vs, i = .ctl hs vs)) → t.WordsTopZero := by
    intro hi
    obtain ⟨k, w, _, hw, rfl⟩ := composerOperation_next hi h
    exact hs.append rfl (by rintro _ ⟨⟩; exact hw)
  have hlane : ∀ l, ((∃ d, i = .lact l d) ∨ (∃ c0 c1, i = .lctl l c0 c1)) → t.WordsTopZero := by
    intro l hi
    obtain ⟨x, out, rfl⟩ := laneOperation_next hi h
    exact hs.append rfl (by rintro _ ⟨⟩)
  cases i with
  | act p => exact hcomposer (.inl ⟨p, rfl⟩)
  | ctl hsync vsync => exact hcomposer (.inr ⟨hsync, vsync, rfl⟩)
  | lact l d => exact hlane l (.inl ⟨d, rfl⟩)
  | lctl l c0 c1 => exact hlane l (.inr ⟨c0, c1, rfl⟩)

/-! ### The step relation of R130 -/

/-- The precondition fails exactly where the counter does not read, with the same (reason, lane) pair (41_composer.md R130). -/
theorem preconditionFault_eq_some_iff {k : Counters} {l : Lane} {f : LaneFault} :
    preconditionFault k l = some f ↔ readCounter k l = .error f := by
  simp only [preconditionFault, readCounter]
  cases k.get l with
  | unset => simp
  | val c =>
    by_cases h : -4 ≤ c ∧ c ≤ 4
    · have hin : ¬ (c < -4 ∨ 4 < c) := by omega
      simp [h, hin]
    · have hout : c < -4 ∨ 4 < c := by omega
      simp [h, hout]

theorem preconditionFault_of_ok {k : Counters} {l : Lane} {c : Int} (h : readCounter k l = .ok c) :
    preconditionFault k l = none := by
  refine Option.eq_none_iff_forall_ne_some.2 fun f hf => ?_
  rw [preconditionFault_eq_some_iff.1 hf] at h
  cases h

/-- The precondition faults of some lanes are the faults among their reads, in the same order (60_exceptions.md R143). -/
theorem filterMap_preconditionFault (k : Counters) (ls : List Lane) :
    ls.filterMap (preconditionFault k) = faultsOf (ls.map (readCounter k)) := by
  induction ls with
  | nil => rfl
  | cons l ls ih =>
    cases h : readCounter k l with
    | ok c => rw [List.filterMap_cons_none (preconditionFault_of_ok h), List.map_cons, h, faultsOf, ih]
    | error f =>
      rw [List.filterMap_cons_some (preconditionFault_eq_some_iff.2 h), List.map_cons, h, faultsOf, ih]

/-- Where the counter reads, the relation's lane computes what the lane encoder does (41_composer.md R130). -/
theorem mealyLane_of_ok {k : Counters} {l : Lane} {c : Int} (d : Byte) (h : readCounter k l = .ok c) :
    mealyLane k l d = ((encodeActive d c).1, .val (encodeActive d c).2) := by
  obtain ⟨hcell, _⟩ := readCounter_ok_iff.1 h
  simp only [mealyLane, hcell]

/-- The colour components of a request's pixel are the request's lowest three bytes (30_encoding.md R62, R66). -/
theorem component_reqPixel (q : Req35) :
    component .a (reqPixel q) = q.extractLsb' 0 8 ∧ component .b (reqPixel q) = q.extractLsb' 8 8 ∧
      component .c (reqPixel q) = q.extractLsb' 16 8 := by
  have hbyte := extractByte_congr (x := reqPixel q) (y := q) fun k hk => getLsbD_reqPixel q hk
  exact ⟨hbyte 0 (by decide), hbyte 8 (by decide), hbyte 16 (by decide)⟩

/-- The index of lane A's control code is the field {V, H} of the request (30_encoding.md R62, R65). -/
theorem ctrlIndex_sync (q : Req35) : ctrlIndex (q.getLsbD 32) (q.getLsbD 33) = q.extractLsb' 32 2 := by
  refine BitVec.eq_of_getLsbD_eq fun i hi => ?_
  rw [ctrlIndex, BitVec.getLsbD_append, BitVec.getLsbD_extractLsb']
  rcases (by omega : i = 0 ∨ i = 1) with rfl | rfl
  · simp
  · simp

/-- The word of a CTL request, by the indices of its three control codes (41_composer.md R125, R130). -/
theorem ctlWord_sync (q : Req35) :
    ctlWord (q.getLsbD 32) (q.getLsbD 33) = pack (ctrlRom (q.extractLsb' 32 2)) (ctrlRom 0#2) (ctrlRom 0#2) := by
  have hblank : encodeControl false false = ctrlRom 0#2 := by decide
  simp only [ctlWord, ctlC0, ctlC1, hblank]
  rw [encodeControl, ctrlIndex_sync]

/-- A composer request does at every state what the step relation says of its counters: the same next counters and word, or the same fault
(41_composer.md R130). -/
theorem exec_composer_mealyReq (q : Req35) (s : State) :
    (∃ k w, exec (decode (.composer q)) s = .next ((s.setCounters k).deliver (.word w)) ∧
      mealyReq s.cnt q = .next k (some w)) ∨
    (∃ fs, exec (decode (.composer q)) s = .fault (.laneFaults fs s.cnt) ∧ mealyReq s.cnt q = .fault fs s.cnt) := by
  cases hsel : q.getLsbD 34 with
  | false =>
    refine .inl ⟨.zero, ctlWord (q.getLsbD 32) (q.getLsbD 33), ?_, ?_⟩
    · rw [decode_composer_ctl hsel, exec_ctl]
    · simp only [mealyReq, hsel, Bool.false_eq_true, if_false, ctlWord_sync]
  | true =>
    rw [decode_composer_act hsel, exec_act]
    have hfaults := filterMap_preconditionFault s.cnt [.a, .b, .c]
    rcases execAct_cases (reqPixel q) s with ⟨ca, cb, cc, ha, hb, hc, hnext⟩ | ⟨hne, hfault⟩
    · obtain ⟨hpa, hpb, hpc⟩ := component_reqPixel q
      refine .inl ⟨_, _, hnext, ?_⟩
      simp only [List.map_cons, List.map_nil, ha, hb, hc, faultsOf] at hfaults
      simp only [mealyReq, hsel, if_true, hfaults, mealyLane_of_ok _ ha, mealyLane_of_ok _ hb, mealyLane_of_ok _ hc,
        hpa, hpb, hpc]
    · refine .inr ⟨_, hfault, ?_⟩
      simp only [List.map_cons, List.map_nil] at hfaults
      rw [← hfaults] at hne ⊢
      obtain ⟨f, fs, hcons⟩ := List.exists_cons_of_ne_nil hne
      simp only [mealyReq, hsel, if_true, hcons]

/-- Outcome (b) of reset beside a request, from what the request alone does (70_reset_and_hazards.md R162): the word stays and the counters
are 0, and a fault stays that fault. -/
def BlockOutcome.thenReset : BlockOutcome → BlockOutcome
  | .next _ w => .next .zero w
  | .fault fs k => .fault fs k

/-- The two outcomes that the relation admits of reset beside a request (41_composer.md R130). -/
theorem mem_mealySteps_resetReq {k : Counters} {q : Req35} {o : BlockOutcome} :
    o ∈ mealySteps k (.resetReq q) ↔ o = .next .zero none ∨ o = (mealyReq k q).thenReset := by
  cases h : mealyReq k q <;> simp [mealySteps, h, BlockOutcome.thenReset]

/-- A request alone shows the outcome of the relation (41_composer.md R130). -/
theorem shows_req (s : State) (q : Req35) : Shows s (.req q) (exec (decode (.composer q)) s) (mealyReq s.cnt q) := by
  rcases exec_composer_mealyReq q s with ⟨k, w, hexec, hmealy⟩ | ⟨fs, hexec, hmealy⟩
  · rw [hexec, hmealy]
    exact ⟨_, rfl, rfl, rfl⟩
  · rw [hexec, hmealy]
    rfl

/-- Each value of the free choice shows one of the two admitted outcomes of reset beside a request (70_reset_and_hazards.md R162). -/
theorem shows_resetOver (s : State) (q : Req35) (emits : Bool) :
    Shows s (.resetReq q) (resetOver emits (exec (decode (.composer q)) s) s)
      (if emits then (mealyReq s.cnt q).thenReset else .next .zero none) := by
  cases emits with
  | false => exact ⟨_, rfl, rfl, rfl⟩
  | true =>
    rcases exec_composer_mealyReq q s with ⟨k, w, hexec, hmealy⟩ | ⟨fs, hexec, hmealy⟩
    · rw [hexec, hmealy]
      exact ⟨_, rfl, rfl, List.append_assoc _ _ _⟩
    · rw [hexec, hmealy]
      rfl

/-! ### Lane operations one after another -/

/-- One operation for each lane of a list, in the list's order: what `runLacts` and `runLctls` have in common (41_composer.md R126). -/
def runLanes (op : Lane → Instr) : List Lane → State → Host.Outcome State Fault Refusal
  | [], s => .next s
  | l :: ls, s =>
    match exec (op l) s with
    | .next t => runLanes op ls t
    | .fault f => .fault f
    | .refused r => .refused r

theorem runLacts_eq_runLanes (p : Word32) (ls : List Lane) (s : State) :
    runLacts p ls s = runLanes (fun l => .lact l (component l p)) ls s := by
  induction ls generalizing s with
  | nil => rfl
  | cons l ls ih =>
    simp only [runLacts, runLanes]
    cases exec (.lact l (component l p)) s with
    | next t => exact ih t
    | fault f => rfl
    | refused r => rfl

theorem runLctls_eq_runLanes (hs vs : Bool) (ls : List Lane) (s : State) :
    runLctls hs vs ls s = runLanes (fun l => .lctl l (ctlC0 l hs) (ctlC1 l vs)) ls s := by
  induction ls generalizing s with
  | nil => rfl
  | cons l ls ih =>
    simp only [runLctls, runLanes]
    cases exec (.lctl l (ctlC0 l hs) (ctlC1 l vs)) s with
    | next t => exact ih t
    | fault f => rfl
    | refused r => rfl

/-- Operations that each write their own lane's cell and deliver its symbol, whatever the other lanes hold, run through in any order without
repetition: every lane named has its new cell, every other its old one, and the symbols go out in that order (41_composer.md R126). -/
theorem runLanes_next {op : Lane → Instr} {x : Lane → Cell} {out : Lane → Symbol} {k : Counters} {ls : List Lane}
    (hop : ∀ (l : Lane) (s : State), s.cnt.get l = k.get l →
      exec (op l) s = .next ((s.setCell l (x l)).deliver (.symbol l (out l))))
    (hnodup : ls.Nodup) (s : State) (hs : ∀ l ∈ ls, s.cnt.get l = k.get l) :
    ∃ u, runLanes op ls s = .next u ∧ (∀ l ∈ ls, u.cnt.get l = x l) ∧ (∀ l, l ∉ ls → u.cnt.get l = s.cnt.get l) ∧
      u.log = s.log ++ ls.map fun l => .symbol l (out l) := by
  induction ls generalizing s with
  | nil => exact ⟨s, rfl, by simp, fun _ _ => rfl, by simp⟩
  | cons l ls ih =>
    obtain ⟨hl, hls⟩ := List.nodup_cons.1 hnodup
    have hne : ∀ m ∈ ls, m ≠ l := fun m hm hml => hl (hml ▸ hm)
    have hfirst := hop l s (hs l List.mem_cons_self)
    obtain ⟨u, hrun, hin, hout, hlog⟩ := ih hls ((s.setCell l (x l)).deliver (.symbol l (out l)))
      (fun m hm => (Counters.get_set_other s.cnt _ (hne m hm)).trans (hs m (List.mem_cons_of_mem l hm)))
    refine ⟨u, by simp only [runLanes, hfirst, hrun], fun m hm => ?_, fun m hm => ?_, by simp [hlog]⟩
    · rcases List.mem_cons.1 hm with rfl | hm
      · rw [hout m hl, State.deliver_cnt, State.setCell_cnt, Counters.get_set_same]
      · exact hin m hm
    · obtain ⟨hml, hm⟩ := not_or.1 (mt List.mem_cons.2 hm)
      exact (hout m hm).trans (Counters.get_set_other s.cnt _ hml)

/-- LACTs one after another fault if some lane of theirs has a counter that does not read: the LACTs before it write other lanes
(60_exceptions.md R143). -/
theorem runLacts_fault {p : Word32} {m : Lane} {e : LaneFault} {ls : List Lane} (hm : m ∈ ls) (s : State)
    (he : readCounter s.cnt m = .error e) : ∃ f, runLacts p ls s = .fault f := by
  induction ls generalizing s with
  | nil => cases hm
  | cons l ls ih =>
    cases hl : readCounter s.cnt l with
    | error e' => exact ⟨.laneFaults [e'] s.cnt, by simp only [runLacts, exec_lact_of_error _ hl]⟩
    | ok c =>
      have hne : m ≠ l := by
        rintro rfl
        rw [he] at hl
        cases hl
      obtain ⟨f, hf⟩ := ih (List.mem_of_ne_of_mem hne hm)
        ((s.setCell l (.val (encodeActive (component l p) c).2)).deliver (.symbol l (encodeActive (component l p) c).1))
        ((readCounter_congr (Counters.get_set_other s.cnt _ hne)).trans he)
      exact ⟨f, by simp only [runLacts, exec_lact_of_ok _ hl, hf]⟩

end Sys2Proof.Machine
end

section
/-! PROOFS. The statements about 41_composer.md: the machine refines the step relation of R130, the composer never faults from ready counters, and
what ACT and CTL do, in the whole and lane by lane. -/

namespace Sys2Proof.Machine

/-- Settles O11: by the input. A request alone has one outcome, and beside a reset the free value picks one of two. -/
theorem stepRefinesBlockRelation : Obligations.StepRefinesBlockRelation := by
  intro s i rest hin hblock
  rw [step_cons hin]
  cases i with
  | reset => exact ⟨_, List.mem_singleton_self _, _, rfl, rfl, rfl⟩
  | req q => exact ⟨_, List.mem_singleton_self _, shows_req { s with input := rest } q⟩
  | resetReq q =>
    refine ⟨_, ?_, shows_resetOver { s with input := rest } q (Config.resetReqEmits s.choice)⟩
    rw [mem_mealySteps_resetReq]
    cases Config.resetReqEmits s.choice with
    | false => exact .inl rfl
    | true => exact .inr rfl
  | lane l k => cases hblock

/-- Settles O39. -/
theorem readyCountersNeverFault : Obligations.ReadyCountersNeverFault := by
  intro s hs hne
  obtain ⟨i, rest, hin⟩ := List.exists_cons_of_ne_nil hne
  rw [step_cons hin]
  exact tick_of_ready i (s := { s with input := rest }) hs

/-- Settles O42: a reset delivers no word, and each operation keeps the invariant. -/
theorem stepKeepsWordTopBitsZero : Obligations.StepKeepsWordTopBitsZero := by
  intro s t hs h
  obtain ⟨i, rest, _, ⟨_, rfl⟩ | ⟨q, _, hq⟩ | ⟨q, _, rfl | ⟨u, hu, rfl⟩⟩ | ⟨l, k, _, hk⟩⟩ := step_cases h
  · exact hs.append rfl (by rintro _ ⟨⟩)
  · exact exec_keeps_wordsTopZero (s := { s with input := rest }) hs hq
  · exact hs.append rfl (by rintro _ ⟨⟩)
  · have hword : u.WordsTopZero := exec_keeps_wordsTopZero (s := { s with input := rest }) hs hu
    exact hword.append rfl (by rintro _ ⟨⟩)
  · exact exec_keeps_wordsTopZero (s := { s with input := rest }) hs hk

/-- Settles O12: dropping the request gives the one outcome, emitting its word the other. -/
theorem admittedResetOutcomesAreReached : Obligations.AdmittedResetOutcomesAreReached := by
  intro s q o ho
  rcases mem_mealySteps_resetReq.1 ho with rfl | rfl
  · exact ⟨false, shows_resetOver s q false⟩
  · exact ⟨true, shows_resetOver s q true⟩

/-- Settles O32. -/
theorem composerOperationFrame : Obligations.ComposerOperationFrame := by
  intro i s t hi h
  obtain ⟨k, w, hready, _, rfl⟩ := composerOperation_next hi h
  exact ⟨rfl, rfl, hready, w, rfl⟩

/-- Settles O14. -/
theorem oneWordPerRequest : Obligations.OneWordPerRequest := by
  intro s q rest hs hin
  obtain ⟨t, ht, _⟩ := exec_of_ready (s := { s with input := rest }) (decode (.composer q)) hs
  obtain ⟨hinput, _, _, w, hlog⟩ := composerOperationFrame _ _ t (decode_composer_cases q) ht
  exact ⟨t, w, (step_cons hin).trans ht, hlog, hinput⟩

/-- Settles O26: the word's fields are the three symbols, and each lane's symbol and counter are those of the two phases. -/
theorem actFollowsLaneRules : Obligations.ActFollowsLaneRules := by
  intro p s ca cb cc hcnt ha ha' hb hb' hc hc'
  have hnext := exec_act_of_ok (s := s) p (readCounter_ok_iff.2 ⟨congrArg Counters.a hcnt, ha, ha'⟩)
    (readCounter_ok_iff.2 ⟨congrArg Counters.b hcnt, hb, hb'⟩) (readCounter_ok_iff.2 ⟨congrArg Counters.c hcnt, hc, hc'⟩)
  have hlane : ∀ (d : Byte) (c : Int) (out : Symbol), out = (encodeActive d c).1 →
      Phase2Rule (intermediate d) c out (encodeActive d c).2 := by
    rintro d c _ rfl
    exact phase2Rule_phase2 (intermediate d) c
  obtain ⟨hfa, hfb, hfc⟩ := wordField_pack (encodeActive (component .a p) ca).1 (encodeActive (component .b p) cb).1
    (encodeActive (component .c p) cc).1
  exact ⟨_, _, _, _, _, _, _, hnext, phase1Rule_intermediate _, hlane _ ca _ hfa, phase1Rule_intermediate _,
    hlane _ cb _ hfb, phase1Rule_intermediate _, hlane _ cc _ hfc, pack_top_zero _ _ _⟩

/-- Settles O28: an order of the three lanes names each once, so each lane operation meets the counter its lane had at the start. -/
theorem laneOrderIsUnobservable : Obligations.LaneOrderIsUnobservable := by
  intro order horder
  have hall : ∀ l, l ∈ order := fun l => horder.mem_iff.2 (by cases l <;> decide)
  have hnodup : order.Nodup := horder.nodup_iff.2 (by decide)
  refine ⟨fun p s t h => ?_, fun p s f h => ?_, fun hs vs s t h => ?_⟩
  · obtain ⟨w, hlog, hlanes⟩ := exec_act_lanes h
    have hop : ∀ (l : Lane) (v : State), v.cnt.get l = s.cnt.get l → exec (.lact l (component l p)) v =
        .next ((v.setCell l (t.cnt.get l)).deliver (.symbol l (wordField l w))) := by
      intro l v hv
      obtain ⟨c, hc, hcell, hfield⟩ := hlanes l
      rw [hcell, hfield]
      exact exec_lact_of_ok _ ((readCounter_congr hv).trans hc)
    obtain ⟨u, hrun, hcells, _, hulog⟩ := runLanes_next hop hnodup s fun _ _ => rfl
    exact ⟨w, u, hlog, (runLacts_eq_runLanes p order s).trans hrun, Counters.ext_get fun l => hcells l (hall l), hulog⟩
  · obtain ⟨l, e, he⟩ := exec_act_fault h
    exact runLacts_fault (hall l) s he
  · rw [exec_ctl] at h
    cases h
    have hop : ∀ (l : Lane) (v : State), v.cnt.get l = s.cnt.get l → exec (.lctl l (ctlC0 l hs) (ctlC1 l vs)) v =
        .next ((v.setCell l (Counters.zero.get l)).deliver (.symbol l (wordField l (ctlWord hs vs)))) := by
      intro l v _
      rw [exec_lctl, Counters.get_zero, wordField_ctlWord]
    obtain ⟨u, hrun, hcells, _, hulog⟩ := runLanes_next hop hnodup s fun _ _ => rfl
    exact ⟨_, u, rfl, (runLctls_eq_runLanes hs vs order s).trans hrun, Counters.ext_get fun l => hcells l (hall l), hulog⟩

/-- Settles O36. -/
theorem laneClaimsLiftToAct : Obligations.LaneClaimsLiftToAct := by
  intro p l s t h
  obtain ⟨w, hlog, hlanes⟩ := exec_act_lanes h
  obtain ⟨c, hc, hcell, hfield⟩ := hlanes l
  exact ⟨w, _, exec_lact_of_ok _ hc, hlog, by rw [hfield]; rfl, by rw [hcell]; exact Counters.get_set_same _ _ _⟩

/-- Settles O29: the four words are the table's. -/
theorem ctlGivesFixedWord : Obligations.CtlGivesFixedWord := by
  refine ⟨fun q => decode_composer_ctl, fun hs vs s => ?_⟩
  rw [exec_ctl]
  cases hs <;> cases vs <;> rfl

/-- Settles O30. -/
theorem ctlIsImplicitReset : Obligations.CtlIsImplicitReset := by
  intro s q rest hsel
  have hctl : step { s with input := .req q :: rest } = exec (decode (.composer q)) { s with input := rest } := rfl
  rw [decode_composer_ctl hsel, exec_ctl] at hctl
  exact ⟨_, _, _, hctl, rfl, rfl, rfl, wordsOf_append _ _, by simp [wordsOf]⟩

/-- Settles O50: each symbol is its field of the word. -/
theorem packBits : Obligations.PackBits := by
  intro a b c
  refine ⟨fun k hk => ?_, pack_top_zero a b c⟩
  obtain ⟨ha, hb, hc⟩ := wordField_pack a b c
  obtain ⟨hka, hkb, hkc⟩ := getLsbD_wordField (pack a b c) hk
  exact ⟨by rw [← hka, ha], by rw [← hkb, hb], by rw [← hkc, hc]⟩

end Sys2Proof.Machine
end

section
/-! PROOFS. The statements about 60_exceptions.md: which reads of a counter fail, and what LACT and ACT raise then. -/

namespace Sys2Proof.Machine

/-- Counters that are not ready have a lane whose LACT precondition fails (41_composer.md R130). -/
theorem Counters.exists_preconditionFault {k : Counters} (h : ¬ k.Ready) : ∃ l f, preconditionFault k l = some f := by
  obtain ⟨l, hl⟩ := not_forall.1 h
  cases hread : readCounter k l with
  | ok c => exact absurd (ready_iff_reads.2 ⟨c, hread⟩) hl
  | error f => exact ⟨l, f, preconditionFault_eq_some_iff.2 hread⟩

/-- Settles O16: in both cases the counter does not read, and the read's reason is the one named. -/
theorem lactFaultsOnBadCounter : Obligations.LactFaultsOnBadCounter := by
  refine fun l d s => ⟨fun hunset => ?_, fun v hval hout => ?_⟩
  · exact exec_lact_of_error d (readCounter_error_iff.2 (.inl ⟨hunset, rfl⟩))
  · have hrange : ¬ (-4 ≤ v ∧ v ≤ 4) := by omega
    exact exec_lact_of_error d (readCounter_error_iff.2 (.inr ⟨v, hval, hrange, rfl⟩))

/-- Settles O27: some lane's precondition fails, so the list of failing reads that ACT raises is not empty. -/
theorem actFaultListsEveryLane : Obligations.ActFaultListsEveryLane := by
  intro p s hs
  have hne : [Lane.a, Lane.b, Lane.c].filterMap (preconditionFault s.cnt) ≠ [] := by
    obtain ⟨l, f, hf⟩ := Counters.exists_preconditionFault hs
    exact List.ne_nil_of_mem (List.mem_filterMap.2 ⟨l, by cases l <;> decide, hf⟩)
  have hfaults := filterMap_preconditionFault s.cnt [.a, .b, .c]
  refine ⟨?_, hne⟩
  rw [hfaults] at hne ⊢
  exact exec_act_of_faults p hne

end Sys2Proof.Machine
end

section
/-! SUPPORT. What the pins show through the latency, what the ticks of a longer record delivered, and what a reset beside a request can do. -/

namespace Sys2Proof.Machine

@[simp] theorem tickWords_append (es fs : List Event) : tickWords (es ++ fs) = tickWords es ++ tickWords fs := by
  induction es with
  | nil => rfl
  | cons e es ih => cases e <;> simp [tickWords, ih]

/-- Before the first word can arrive, the pins are idle (70_reset_and_hazards.md R171). -/
theorem pinWord_of_lt {latency t : Nat} (idle : Word32) (log : List Event) (h : t < latency) :
    pinWord latency idle log t = idle :=
  if_pos h

/-- LATENCY ticks after tick `t`, the pins show that tick's word, or IDLE_WORD without one (70_reset_and_hazards.md R166, R171). -/
theorem pinWord_add_latency (latency : Nat) (idle : Word32) (log : List Event) (t : Nat) :
    pinWord latency idle log (t + latency) = (tickWords log)[t]?.join.getD idle := by
  have hlate : ¬ t + latency < latency := by omega
  rw [pinWord, if_neg hlate, Nat.add_sub_cancel]
  rcases (tickWords log)[t]? with _ | _ | w <;> rfl

/-- A composer request that completes hands over one word, and nothing else (41_composer.md R127). -/
theorem exec_composer_next_log {q : Req35} {s t : State} (h : exec (decode (.composer q)) s = .next t) :
    ∃ w, t.log = s.log ++ [.word w] := by
  obtain ⟨k, w, _, _, rfl⟩ := composerOperation_next (decode_composer_cases q) h
  exact ⟨w, rfl⟩

end Sys2Proof.Machine
end

section
/-! PROOFS. The statements about 70_reset_and_hazards.md: a tick with reset, alone or beside a request, and what the pins show. -/

namespace Sys2Proof.Machine

/-- Settles O10: by what the free value picks. A dropped request is a reset tick; a kept one ends as it would alone, and then the counters are 0. -/
theorem resetBesideRequest : Obligations.ResetBesideRequest := by
  intro s q rest hin
  rw [step_cons hin]
  simp only [tick]
  rcases resetOver_cases (Config.resetReqEmits s.choice) (exec (decode (.composer q)) { s with input := rest })
    { s with input := rest } with ⟨_, hdrop⟩ | ⟨_, u, hu, hemit⟩ | ⟨_, f, hf, hfault⟩ | ⟨_, r, hr, _⟩
  · exact .inl ⟨_, hdrop, rfl, by simp [wordsOf]⟩
  · obtain ⟨w, hlog⟩ := exec_composer_next_log hu
    exact .inr (.inl ⟨_, u, w, hu, hlog, hemit, rfl, by simp [hlog, wordsOf]⟩)
  · exact .inr (.inr ⟨f, hf, hfault⟩)
  · exact absurd hr (exec_never_refused _ _ r)

/-- Settles O9. -/
theorem resetTickZeroesCounters : Obligations.ResetTickZeroesCounters := by
  intro s rest hin
  have hstep : step s = .next (resetTick { s with input := rest }) := step_cons hin
  exact ⟨_, hstep, rfl, rfl, rfl, rfl, by simp [wordsOf], by simp [tickWords]⟩

/-- Settles O51: LATENCY ticks after a tick, the pins show what that tick delivered. -/
theorem pinsShowWordsAfterLatency : Obligations.PinsShowWordsAfterLatency := by
  refine fun latency idle log t => ⟨pinWord_of_lt idle log, fun w hword => ?_, fun hnone => ?_⟩
  · rw [pinWord_add_latency, hword]
    rfl
  · rw [pinWord_add_latency, hnone]
    rfl

end Sys2Proof.Machine
end

section
/-! SUPPORT. Runs and the boot duty: what a run from ready counters does, and how the first tick of a booted stream makes the counters ready. -/

namespace Sys2Proof.Machine

/-- No run from ready counters faults: each step leaves them ready, until the inputs end in a refusal (40_lane_encoder.md R93). -/
theorem run_of_ready_ne_fault (n : Nat) {s : State} (hs : s.cnt.Ready) (f : Fault) :
    Host.Core.run Sys2Proof.core n s ≠ .fault f := by
  induction n generalizing s with
  | zero => exact nofun
  | succ n ih =>
    by_cases hin : s.input = []
    · rw [run_succ_refused n (step_nil hin)]
      exact nofun
    · obtain ⟨t, hstep, ht⟩ := readyCountersNeverFault s hs hin
      rw [run_succ_next n hstep]
      exact ih ht

/-- A CTL completes at every state, and leaves the counters ready (41_composer.md R125, R130). -/
theorem exec_of_not_reqSelect {q : Req35} (h : reqSelect q = false) (s : State) :
    ∃ t, exec (decode (.composer q)) s = .next t ∧ t.cnt.Ready := by
  rw [decode_composer_ctl h]
  exact ⟨_, exec_ctl _ _ s, Counters.ready_zero⟩

/-- Beside a reset, a request that would complete alone makes no fault, and the counters are ready whichever outcome is taken
(70_reset_and_hazards.md R162). -/
theorem tick_resetReq_of_next {q : Req35} {s u : State} (h : exec (decode (.composer q)) s = .next u) :
    ∃ t, tick (.resetReq q) s = .next t ∧ t.cnt.Ready := by
  simp only [tick, h]
  cases Config.resetReqEmits s.choice with
  | false => exact ⟨_, rfl, Counters.ready_zero⟩
  | true => exact ⟨_, rfl, Counters.ready_zero⟩

/-- The first input of a booted stream completes at every state, Unset counters included, and leaves the counters ready
(70_reset_and_hazards.md R164, R165). -/
theorem tick_of_boots {i : Input} {rest : List Input} (h : boots (i :: rest) = true) (s : State) :
    ∃ t, tick i s = .next t ∧ t.cnt.Ready := by
  cases i with
  | reset => exact ⟨_, rfl, Counters.ready_zero⟩
  | req q =>
    obtain ⟨hsel, _⟩ := Bool.and_eq_true_iff.1 h
    exact exec_of_not_reqSelect (Bool.eq_false_of_not_eq_true' hsel) s
  | resetReq q =>
    obtain ⟨hsel, _⟩ := Bool.and_eq_true_iff.1 h
    obtain ⟨u, hu, _⟩ := exec_of_not_reqSelect (Bool.eq_false_of_not_eq_true' hsel) s
    exact tick_resetReq_of_next hu
  | lane l k => cases h

/-- On a booted stream no run faults, whatever the counters are at the start (70_reset_and_hazards.md R165): the first tick leaves them ready. -/
theorem run_of_boots_ne_fault (n : Nat) {s : State} (h : boots s.input = true) (f : Fault) :
    Host.Core.run Sys2Proof.core n s ≠ .fault f := by
  cases n with
  | zero => exact nofun
  | succ n =>
    cases hin : s.input with
    | nil =>
      rw [run_succ_refused n (step_nil hin)]
      exact nofun
    | cons i rest =>
      rw [hin] at h
      obtain ⟨t, htick, ht⟩ := tick_of_boots h { s with input := rest }
      rw [run_succ_next n ((step_cons hin).trans htick)]
      exact run_of_ready_ne_fault n ht f

end Sys2Proof.Machine
end

section
/-! PROOFS. The statement about the boot duty (70_reset_and_hazards.md section 2). -/

namespace Sys2Proof.Machine

/-- Settles O44: the booted streams do not fault from any start state, so not from power-up. -/
theorem bootedStreamsNeverFault : Obligations.BootedStreamsNeverFault :=
  fun ins n hboots f => run_of_boots_ne_fault n (s := { State.powerUp with input := ins }) hboots f

end Sys2Proof.Machine
end
